-- ==== Sys2Proof/Word.lean ====
section
/-! DEFINITION. The word types of the ML-KEM-1024 CORE: bytes, host words, bus addresses, slot numbers and coefficients. -/

namespace Sys2Proof

/-- One byte of the byte RAM (R11, R150). -/
abbrev Byte := BitVec 8

/-- One 32-bit word: host data (R200), a command (R300), a register as the bus sees it (R101). -/
abbrev Word := BitVec 32

/-- A host byte address, 18 bits (R7 HADDR_W, R200). -/
abbrev HostAddr := BitVec 18

/-- A slot field of a command: a 6-bit slot number (R304). -/
abbrev Slot := BitVec 6

/-- A byte-RAM address field of a command or register: 13 bits (R305, R125). -/
abbrev ByteAddr := BitVec 13

/-- A Coef: an integer in [0, q-1] with q = 3329 (R11). R131 allows a model to type a slot cell this way. -/
abbrev Coef := Fin 3329

end Sys2Proof
end

