-- ==== Sys2Proof/Config.lean ====
section
/-! DEFINITION. What the spec fixes per device or leaves open: the ID constant, the four hash functions of the external
hash engine and the number of host steps a command stays busy. Nothing else is left open (R8). -/

namespace Sys2Proof

/-- The constant the ID register reads, "MLK4" (R110). -/
def Config.idValue : Word := 0x4D4C4B34

/-- SHA3_256 : bytes → bytes[32], a parameter of the model (R8, R20). Free: no value of it can be proved. Log 1. -/
opaque Config.sha3_256 : List Byte → Vector Byte 32

/-- SHA3_512 : bytes → bytes[64], a parameter of the model (R8, R20). Free. Log 1. -/
opaque Config.sha3_512 : List Byte → Vector Byte 64

/-- The output stream of SHAKE256 on an input: SHAKE256(x, n) is its first n bytes, which is the prefix property of R20.
Free. Log 1. -/
opaque Config.shake256Stream : List Byte → Nat → Byte

/-- SHAKE128 : bytes → (ℕ → byte), an infinite output stream (R20). Free. Log 1. -/
opaque Config.shake128 : List Byte → Nat → Byte

/-- BUSY_STEPS of the k-th accepted command: how many host steps pass before the core may take its completion step
(R121, R850; "left open", D38). Free, indexed by the state's counter of accepted commands. Log 2. -/
opaque Config.busySteps : Nat → Nat

/-- How many 3-byte chunks of each SHAKE128 stream the k-th accepted command has examined by the first step at which it
may complete (R850, R505). Free; the state raises it by one at each later try, so there is no cap. Log 3. -/
opaque Config.firstChunks : Nat → Nat

end Sys2Proof
end

