-- ==== Sys2Proof/Machine/State.lean ====
section
/-! DEFINITION. The state of the core (10_state.md R100), the host's pending transactions, the reset state (R801), and the
reasons a step can stop. All of it is plain data. -/

namespace Sys2Proof.Machine

/-- A Poly: 256 Coefs (R11, R130). -/
abbrev Poly := Vector Coef 256

/-- The byte RAM as the bytes that differ from zero: (address, byte) pairs, addresses strictly rising, no zero byte listed.
An unlisted address reads 0, which is what reset leaves in the byte RAM (R150, R800). -/
abbrev Memory := List Host.Cell

/-- The STATUS register's fields (R112). Bits 3 and [31:11] hold nothing and read 0. -/
structure Status where
  /-- [0] BUSY: a command has been accepted and has not completed (R121) -/
  busy : Bool
  /-- [1] DONE: a command has completed (R113) -/
  done : Bool
  /-- [2] ERR: the last completed command raised a CmdError (R114) -/
  err : Bool
  /-- [7:4] ERRCODE (R114, R701) -/
  errCode : BitVec 4
  /-- [8] ACCERR, sticky: a host access was refused (R115) -/
  accerr : Bool
  /-- [9] OVERRUN, sticky: CMD was written while busy (R116) -/
  overrun : Bool
  /-- [10] NONCANON, sticky: a 12-bit decode met a value ≥ q (R117) -/
  noncanon : Bool
  deriving DecidableEq, Repr

/-- A command error (R701). -/
inductive CmdError where
  /-- 1: the opcode is unassigned (R311) -/
  | illegal
  /-- 2: a must-be-zero bit, a reserved width code or hash selector (R312) -/
  | param
  /-- 3: a Vec base > 60 or a Mat base > 48 (R132) -/
  | slot
  /-- 4: a byte range passes 0x1FFF (R305) -/
  | byte
  /-- 5: a forbidden overlap (R457) -/
  | overlap
  /-- 6: an operand outside the command's domain -/
  | operand
  /-- 7: the finite stream of SNTTB ran out (R503) -/
  | stream
  deriving DecidableEq, Repr

/-- One thing the host does to the core: a bus transaction (R200) or the reset line (R800). -/
inductive HostOp where
  /-- HostRead(addr) -/
  | read (addr : HostAddr)
  /-- HostWrite(addr, data, wstrb) -/
  | write (addr : HostAddr) (data : Word) (wstrb : BitVec 4)
  /-- the reset input is asserted and released (R800) -/
  | reset
  deriving DecidableEq, Repr

/-- The whole state of the core and of the model's own bookkeeping (the last five fields). -/
structure State where
  /-- CTRL.IE, the interrupt enable (R111) -/
  ie : Bool
  /-- STATUS (R112) -/
  status : Status
  /-- CMD, the last accepted command word (R120) -/
  cmd : Word
  /-- OPA[15:0] (R118) -/
  opa : BitVec 16
  /-- OPB[15:0] (R118) -/
  opb : BitVec 16
  /-- OPX, signed (R119) -/
  opx : Word
  /-- RES[15:0] (R122) -/
  res : BitVec 16
  /-- NONCE[7:0] (R123) -/
  nonce : BitVec 8
  /-- CONSUMED (R124) -/
  consumed : Word
  /-- HSRC[12:0] (R125) -/
  hsrc : ByteAddr
  /-- HLEN[13:0] (R125) -/
  hlen : BitVec 14
  /-- HDST[12:0] (R125) -/
  hdst : ByteAddr
  /-- HOLEN[13:0] (R125) -/
  holen : BitVec 14
  /-- the slot RAM (R130) -/
  slots : Vector Poly 64
  /-- the byte RAM (R150) -/
  bram : Memory
  /-- the model's own: what the host does next, oldest first (log 5) -/
  inputs : List HostOp
  /-- the model's own: the data of the latest host read (R200, log 5) -/
  rdata : Word
  /-- the model's own: host steps before the running command may complete (R850, log 2) -/
  busyLeft : Nat
  /-- the model's own: chunks of each SHAKE128 stream the running command has examined (R505, log 3) -/
  chunks : Nat
  /-- the model's own: accepted commands so far, the index of the free values (log 2) -/
  accepts : Nat
  deriving DecidableEq, Repr

/-- Reasons the machine stops with a fault. The spec gives every access and every command an outcome (R861), so there is
none: no meaning and no step raises one, which is safe. -/
inductive Fault
  deriving DecidableEq, Repr

/-- Reasons a step has no meaning. -/
inductive Refusal where
  /-- An instruction whose meaning is not written yet; raised by an arm of `exec` only, none does. Safe: the model stops. -/
  | notModelled (mnemonic : String)
  deriving DecidableEq, Repr

/-- The core right after reset: every field as R801 gives it; the model's own fields empty or 0 (logs 2, 3, 5). -/
def State.reset : State where
  ie := false
  status := { busy := false, done := false, err := false, errCode := 0, accerr := false, overrun := false, noncanon := false }
  cmd := 0
  opa := 0
  opb := 0
  opx := 0
  res := 0
  nonce := 0
  consumed := 0
  hsrc := 0
  hlen := 0
  hdst := 0
  holen := 0
  slots := Vector.replicate 64 (Vector.replicate 256 0)
  bram := []
  inputs := []
  rdata := 0
  busyLeft := 0
  chunks := 0
  accepts := 0

end Sys2Proof.Machine
end

