-- ==== Sys2Proof/Machine/Flags.lean ====
section
/-! DEFINITION. Every flag computation of the STATUS register (R112-R117, R121, R700), the word the host reads from it, and
the interrupt output (R161, R708). -/

namespace Sys2Proof.Machine

/-- The 4-bit code of a command error (R701). -/
def CmdError.code : CmdError → BitVec 4
  | .illegal => 1
  | .param => 2
  | .slot => 3
  | .byte => 4
  | .overlap => 5
  | .operand => 6
  | .stream => 7

/-- The flags at the accept of a command: DONE, ERR and ERRCODE cleared, BUSY set (R121 step 1). -/
def Status.accept (f : Status) : Status := { f with busy := true, done := false, err := false, errCode := 0 }

/-- The flags at a successful completion (R114, R121 step 2). -/
def Status.succeed (f : Status) : Status := { f with busy := false, done := true, err := false, errCode := 0 }

/-- The flags at a completion with a CmdError (R700). -/
def Status.fail (e : CmdError) (f : Status) : Status := { f with busy := false, done := true, err := true, errCode := e.code }

/-- A refused host access sets ACCERR (R115). -/
def Status.flagAccerr (f : Status) : Status := { f with accerr := true }

/-- A CMD write while busy sets OVERRUN (R116). -/
def Status.flagOverrun (f : Status) : Status := { f with overrun := true }

/-- A 12-bit decode that met a value ≥ q sets NONCANON; one that did not leaves it (R117). -/
def Status.flagNoncanon (nc : Bool) (f : Status) : Status := { f with noncanon := f.noncanon || nc }

/-- A host write of `data` to STATUS: each W1C field whose data bit is 1 is cleared, every other field stays (R112). -/
def Status.writeOneToClear (data : Word) (f : Status) : Status :=
  { f with
    done := f.done && !data.getLsbD 1
    err := f.err && !data.getLsbD 2
    accerr := f.accerr && !data.getLsbD 8
    overrun := f.overrun && !data.getLsbD 9
    noncanon := f.noncanon && !data.getLsbD 10 }

/-- The word a host read of STATUS returns (R112). -/
def Status.toWord (f : Status) : Word :=
  0#21 ++ BitVec.ofBool f.noncanon ++ BitVec.ofBool f.overrun ++ BitVec.ofBool f.accerr ++ f.errCode ++ 0#1 ++
    BitVec.ofBool f.err ++ BitVec.ofBool f.done ++ BitVec.ofBool f.busy

/-- The interrupt output irq = CTRL.IE & STATUS.DONE (R161, R708). -/
def State.irq (s : State) : Bool := s.ie && s.status.done

end Sys2Proof.Machine
end

