-- ==== Sys2Proof/Machine/Ops.lean ====
section
/-! DEFINITION. The named operations over polynomials, the two RAMs and the registers, and the completion step: a command's
effect, taking a command error (R700) and leaving it (R707). -/

namespace Sys2Proof.Machine

/-! ## Polynomials -/

/-- Coefficient i of a Poly (R10, R11). -/
def Poly.get (p : Poly) (i : Nat) : Coef := p.toList.getD i 0

/-- The Poly whose coefficient i is `f i`, for i in 0..255. -/
def Poly.ofFn (f : Nat → Coef) : Poly := ⟨((List.range 256).map f).toArray, by simp⟩

/-- The zero polynomial (R11). -/
def Poly.zero : Poly := Poly.ofFn fun _ => 0

/-! ## The byte RAM -/

/-- The byte at an address; an unlisted address reads 0 (R150, R800). -/
def Memory.read : Memory → Nat → Byte
  | [], _ => 0
  | c :: m, a => if c.1 = a then c.2 else Memory.read m a

/-- Write one byte, keeping the list sorted and free of zero bytes. -/
def Memory.write : Memory → Nat → Byte → Memory
  | [], a, b => if b = 0 then [] else [(a, b)]
  | c :: m, a, b =>
    if a < c.1 then (if b = 0 then c :: m else (a, b) :: c :: m)
    else if a = c.1 then (if b = 0 then m else (a, b) :: m)
    else c :: Memory.write m a b

/-- MemRead(a, n): the n bytes at a..a+n-1 in address order (R10). -/
def Memory.readBytes (m : Memory) (a n : Nat) : List Byte := (List.range n).map fun i => m.read (a + i)

/-- MemWrite(a, n, B): write the byte string B at a, a+1, … (R10). -/
def Memory.writeBytes : Memory → Nat → List Byte → Memory
  | m, _, [] => m
  | m, a, b :: bs => Memory.writeBytes (m.write a b) (a + 1) bs

/-- Set the n bytes at a..a+n-1 to 0: none of them is listed any more. -/
def Memory.zeroRange (m : Memory) (a n : Nat) : Memory := m.filter fun c => !(decide (a ≤ c.1) && decide (c.1 < a + n))

/-- The canonical form: addresses strictly rising, inside the byte RAM, and no zero byte listed. -/
def Memory.wf (m : Memory) : Bool :=
  decide (m.Pairwise fun c d => c.1 < d.1) && m.all fun c => decide (c.1 < 8192) && c.2 != 0

/-! ## Named updates of the state -/

/-- STATUS <- f. -/
def State.setStatus (s : State) (f : Status) : State := { s with status := f }

/-- RES, 16 bits zero-extended from the value (R122). -/
def State.setRes (s : State) (v : Nat) : State := { s with res := BitVec.ofNat 16 v }

/-- NONCE <- v (R123). -/
def State.setNonce (s : State) (v : BitVec 8) : State := { s with nonce := v }

/-- CONSUMED <- v, 32 bits (R124). -/
def State.setConsumed (s : State) (v : Nat) : State := { s with consumed := BitVec.ofNat 32 v }

/-- The whole slot RAM replaced. -/
def State.setSlots (s : State) (v : Vector Poly 64) : State := { s with slots := v }

/-- The byte RAM replaced by a memory that the caller has written. -/
def State.setBram (s : State) (m : Memory) : State := { s with bram := m }

/-! ## The slot RAM -/

/-- slot[k] (R10, R130). -/
def State.slot (s : State) (k : Nat) : Poly := s.slots.toList.getD k Poly.zero

/-- slot[k] <- p (R10). -/
def State.setSlot (s : State) (k : Nat) (p : Poly) : State := s.setSlots (s.slots.setIfInBounds k p)

/-- The Vec with base b: v[i] = slot[b+i] (R132). -/
def State.vec (s : State) (b : Nat) : Fin 4 → Poly := fun i => s.slot (b + i.val)

/-- The Mat with base b, row-major: A[i][j] = slot[b + 4·i + j] (R132). -/
def State.mat (s : State) (b : Nat) : Fin 4 → Fin 4 → Poly := fun i j => s.slot (b + 4 * i.val + j.val)

/-- slot[b+i] <- v[i] for i in 0..3; `v` is computed before any slot is written (R450). -/
def State.setVec (s : State) (b : Nat) (v : Fin 4 → Poly) : State :=
  (((s.setSlot b (v 0)).setSlot (b + 1) (v 1)).setSlot (b + 2) (v 2)).setSlot (b + 3) (v 3)

/-! ## The completion step -/

/-- What a command's pseudocode ends in. -/
inductive Effect where
  /-- every write of the command's rule has been made -/
  | done (t : State)
  /-- raise CmdError(e); `t` is the state before the command, or that state with CONSUMED written (R503) -/
  | error (e : CmdError) (t : State)
  /-- a SHAKE128 stream has not yielded 256 values in the chunks examined so far: no completion step (R505) -/
  | pending
  deriving DecidableEq, Repr

/-- Taking a command error: BUSY 0, DONE 1, ERR 1, ERRCODE the code, and nothing else (R700). -/
def raiseCmdError (e : CmdError) (t : State) : State := t.setStatus (t.status.fail e)

/-- Leaving the error state: there is no trap return; the next accepted command clears DONE, ERR and ERRCODE (R707, R121).
The word is latched in CMD and the free values of the new command are drawn (logs 2, 3). -/
def acceptCommand (w : Word) (s : State) : State :=
  { s with
    cmd := w
    status := s.status.accept
    busyLeft := Config.busySteps s.accepts
    chunks := Config.firstChunks s.accepts
    accepts := s.accepts + 1 }

/-- The core has not completed: BUSY stays 1 and nothing but the model's own fields changes. The host moves next, and one more
chunk of each stream is examined at the next try (R505, R850, log 3). -/
def State.stall (s : State) : State := { s with busyLeft := 1, chunks := s.chunks + 1 }

/-- The state after the core's step on a command with this effect (R121 step 2, R700, R505). -/
def State.complete (s : State) : Effect → State
  | .done t => t.setStatus t.status.succeed
  | .error e t => raiseCmdError e t
  | .pending => s.stall

/-- The outcome of a command with this effect: always a next state. -/
def finish (s : State) (r : Effect) : Host.Outcome State Fault Refusal := .next (s.complete r)

/-- The core, not the host, takes the next step: a command is running and its host steps have passed (R121, R850, R860). -/
def coreMoves (s : State) : Bool := s.status.busy && s.busyLeft == 0

/-- The completion step of a word with an unassigned opcode: CmdError(ILLEGAL) and no other effect (R311). -/
def completeIllegal (s : State) : Host.Outcome State Fault Refusal := finish s (.error .illegal s)

end Sys2Proof.Machine
end

