-- ==== Sys2Proof/Machine/Operands.lean ====
section
/-! DEFINITION. The operand forms: width codes (R307), the eta bit (R308), Vec and Mat bases (R132), slot-range overlaps
(R457), byte ranges (R305), byte strings and their bits (R12), and the mailbox regions (R150). -/

namespace Sys2Proof.Machine

/-- The codec width d of a 3-bit width code; none for the reserved codes 6 and 7 (R307). -/
def widthOf (dcode : BitVec 3) : Option Nat := [1, 4, 5, 10, 11, 12][dcode.toNat]?

/-- The compression width of a CMPR or DCMP fn field: the codes 0..4 only (R307, R542, R543). -/
def compressWidthOf (fn : BitVec 3) : Option Nat := [1, 4, 5, 10, 11][fn.toNat]?

/-- η = 2 when the eta bit is 0, η = 3 when it is 1 (R308). -/
def etaOf (eta : BitVec 1) : Nat := if eta = 0 then 2 else 3

/-- A Vec base must be ≤ 60 (R132). -/
def isVecBase (b : Slot) : Bool := decide (b.toNat ≤ 60)

/-- A Mat base must be ≤ 48 (R132). -/
def isMatBase (b : Slot) : Bool := decide (b.toNat ≤ 48)

/-- The closed slot ranges [a, a+n-1] and [b, b+m-1] share at least one slot (R457). -/
def slotsMeet (a n b m : Nat) : Bool := decide (a < b + m) && decide (b < a + n)

/-- overlap_vadd: for some source s, [rd, rd+3] meets [s, s+3] and rd ≠ s (R457). -/
def overlapVadd (rd rs1 rs2 : Slot) : Bool :=
  (slotsMeet rd.toNat 4 rs1.toNat 4 && rd != rs1) || (slotsMeet rd.toNat 4 rs2.toNat 4 && rd != rs2)

/-- The byte range [a, a+len-1] ends at or below 0x1FFF (R305, R481, R600). -/
def inByteRam (a len : Nat) : Bool := decide (a + len ≤ 8192)

/-- Bit k of a byte string: bit (k mod 8) of byte ⌊k/8⌋ (R12). -/
def bitAt (B : List Byte) (k : Nat) : Bool := (B.getD (k / 8) 0).getLsbD (k % 8)

/-- The number whose bit k is `f k`, for k < n: Σ_{k<n} f(k)·2^k (R19). -/
def bitsToNat : Nat → (Nat → Bool) → Nat
  | 0, _ => 0
  | n + 1, f => bitsToNat n f + (if f n then 2 ^ n else 0)

/-- How many of `f 0`, …, `f (n-1)` are 1 (the popcounts of R22). -/
def countBits : Nat → (Nat → Bool) → Nat
  | 0, _ => 0
  | n + 1, f => countBits n f + (if f n then 1 else 0)

/-- The bytes B[a .. a+n-1]. -/
def bytesAt (B : List Byte) (a n : Nat) : List Byte := (B.drop a).take n

/-- byte(v): the one-byte string holding v (R11). -/
def byteOf (v : Nat) : List Byte := [BitVec.ofNat 8 v]

/-! ## Mailbox regions: start and length (R150) -/

def Mailbox.dk : Nat × Nat := (0x0000, 3168)
def Mailbox.ek : Nat × Nat := (0x0C60, 1568)
def Mailbox.ct : Nat × Nat := (0x1280, 1568)
def Mailbox.cp : Nat × Nat := (0x18A0, 1568)
def Mailbox.seedD : Nat × Nat := (0x1EC0, 32)
def Mailbox.seedZ : Nat × Nat := (0x1EE0, 32)
def Mailbox.msg : Nat × Nat := (0x1F00, 32)
def Mailbox.kout : Nat × Nat := (0x1F20, 32)
def Mailbox.coins : Nat × Nat := (0x1F40, 32)
def Mailbox.scr : Nat × Nat := (0x1F60, 160)
/-- The dk_pke field of DK (R150, R563, R567). -/
def Mailbox.dkPke : Nat × Nat := (0x0000, 1536)

/-- The bytes of a mailbox region. -/
def State.mailbox (s : State) (r : Nat × Nat) : List Byte := s.bram.readBytes r.1 r.2

/-- Write a byte string at the start of a mailbox region. -/
def State.setMailbox (s : State) (r : Nat × Nat) (B : List Byte) : State := s.setBram (s.bram.writeBytes r.1 B)

/-- Zero a list of regions of the byte RAM. -/
def Memory.zeroRegions : Memory → List (Nat × Nat) → Memory
  | m, [] => m
  | m, r :: rs => Memory.zeroRegions (m.zeroRange r.1 r.2) rs

/-- Every cell of all 64 slots set to 0 (R561, R621). -/
def zeroSlots : Vector Poly 64 := Vector.replicate 64 Poly.zero

/-- wipe(X): all 64 slots, CP, SCR and each extra region of X set to 0 (R561). -/
def wipe (extra : List (Nat × Nat)) (s : State) : State :=
  (s.setSlots zeroSlots).setBram (s.bram.zeroRegions (Mailbox.cp :: Mailbox.scr :: extra))

end Sys2Proof.Machine
end

