-- ==== Sys2Proof/Machine/Arith.lean ====
section
/-! DEFINITION. The modular arithmetic unit (41_modarith.md): its datapath (R400-R403) and MADD, MSUB, MMUL, MRED. -/

namespace Sys2Proof.Machine

/-- Store an integer in a 12-bit cell that holds a Coef. Every rule that writes a cell gives it a value in [0, q-1]. -/
def narrow (r : Int) : Coef := Fin.ofNat 3329 r.toNat

/-- Modular add: the sum, less q once if it is ≥ q (R400). -/
def modAdd (a b : Coef) : Coef :=
  let sum : Int := (a.val : Int) + (b.val : Int)
  narrow (if sum ≥ 3329 then sum - 3329 else sum)

/-- Modular subtract: the signed difference, plus q once if it is negative (R402). -/
def modSub (a b : Coef) : Coef :=
  let d : Int := (a.val : Int) - (b.val : Int)
  narrow (if d < 0 then d + 3329 else d)

/-- Barrett reduction with the literal multiplier 20159 and shift 26, the rounding constant 2²⁵ = 33554432,
and the two corrections in this order (R401). -/
def barrett (x : Int) : Int :=
  let t := x * 20159 + 33554432
  let quo := t >>> (26 : Nat)
  let r := x - quo * 3329
  let r := if r < 0 then r + 3329 else r
  if r ≥ 3329 then r - 3329 else r

/-- Modular multiply: the product through Barrett reduction (R403). -/
def modMul (a b : Coef) : Coef := narrow (barrett ((a.val : Int) * (b.val : Int)))

/-- The scalar operands of MADD, MSUB and MMUL are both below q (R405-R407). -/
def scalarsInRange (s : State) : Bool := decide (s.opa.toNat < 3329) && decide (s.opb.toNat < 3329)

/-- MADD (R405). -/
def execMadd (zero : BitVec 24) (s : State) : Host.Outcome State Fault Refusal :=
  finish s <|
    if zero ≠ 0 then .error .param s
    else if scalarsInRange s = false then .error .operand s
    else .done (s.setRes (modAdd (narrow s.opa.toNat) (narrow s.opb.toNat)).val)

/-- MSUB (R406). -/
def execMsub (zero : BitVec 24) (s : State) : Host.Outcome State Fault Refusal :=
  finish s <|
    if zero ≠ 0 then .error .param s
    else if scalarsInRange s = false then .error .operand s
    else .done (s.setRes (modSub (narrow s.opa.toNat) (narrow s.opb.toNat)).val)

/-- MMUL (R407). -/
def execMmul (zero : BitVec 24) (s : State) : Host.Outcome State Fault Refusal :=
  finish s <|
    if zero ≠ 0 then .error .param s
    else if scalarsInRange s = false then .error .operand s
    else .done (s.setRes (modMul (narrow s.opa.toNat) (narrow s.opb.toNat)).val)

/-- MRED: x = sext(OPX), reduced when −2²⁶ ≤ x ≤ 2²⁶ = 67108864 (R408). -/
def execMred (zero : BitVec 24) (s : State) : Host.Outcome State Fault Refusal :=
  finish s <|
    if zero ≠ 0 then .error .param s
    else if s.opx.toInt < -67108864 ∨ s.opx.toInt > 67108864 then .error .operand s
    else .done (s.setRes (barrett s.opx.toInt).toNat)

end Sys2Proof.Machine
end

