-- ==== Sys2Proof/Machine/Ntt.lean ====
section
/-! DEFINITION. The twiddle ROM (R140) and the NTT butterfly engine (42_ntt.md): NTT, INTT, VNTT, VINTT, BASEMUL. -/

namespace Sys2Proof.Machine

/-- bitrev7(k): the 7 bits of k reversed, Σ_{b=0..6} k[b]·2^(6−b) (R13). -/
def bitrev7 (k : Nat) : Nat :=
  (List.range 7).foldl (fun acc b => acc + (if k.testBit b then 2 ^ (6 - b) else 0)) 0

/-- ZETA[k] = 17^BITREV7[k] mod q (R140). -/
def zeta (k : Nat) : Coef := Fin.ofNat 3329 (17 ^ bitrev7 k)

/-- GAMMA[k] = 17^(2·BITREV7[k] + 1) mod q (R140). -/
def gamma (k : Nat) : Coef := Fin.ofNat 3329 (17 ^ (2 * bitrev7 k + 1))

/-- One layer of the forward transform with butterfly length `len` (R15). The layer's blocks of 2·len coefficients take
the twiddles ZETA[128/len], ZETA[128/len + 1], … in order. Coefficient i is the upper or the lower output of its butterfly:
p[j] + z·p[j+len] at j, p[j] − z·p[j+len] at j+len. DEDUCED from the loops of R15: log 6. -/
def nttLayer (len : Nat) (p : Nat → Coef) (i : Nat) : Coef :=
  let z := zeta (128 / len + i / (2 * len))
  if i % (2 * len) < len then modAdd (p i) (modMul z (p (i + len)))
  else modSub (p (i - len)) (modMul z (p i))

/-- One layer of the inverse transform with butterfly length `len` (R16). The layer's blocks take the twiddles
ZETA[256/len − 1], ZETA[256/len − 2], … in order: p[j] + p[j+len] at j, z·(p[j+len] − p[j]) at j+len. DEDUCED: log 6. -/
def inttLayer (len : Nat) (p : Nat → Coef) (i : Nat) : Coef :=
  let z := zeta (256 / len - 1 - i / (2 * len))
  if i % (2 * len) < len then modAdd (p i) (p (i + len))
  else modMul z (modSub (p i) (p (i - len)))

/-- NTT(f): seven layers, butterfly length 128, 64, …, 2 (R15). -/
def ntt (f : Poly) : Poly :=
  Poly.ofFn (nttLayer 2 (nttLayer 4 (nttLayer 8 (nttLayer 16 (nttLayer 32 (nttLayer 64 (nttLayer 128 f.get)))))))

/-- INTT(f): seven layers, butterfly length 2, 4, …, 128, then every coefficient times 3303 (R16). -/
def intt (f : Poly) : Poly :=
  Poly.ofFn fun i => modMul
    (inttLayer 128 (inttLayer 64 (inttLayer 32 (inttLayer 16 (inttLayer 8 (inttLayer 4 (inttLayer 2 f.get)))))) i) 3303

/-- BaseMul(a, b): the pair (2i, 2i+1) is multiplied mod X² − GAMMA[i] (R17). -/
def baseMul (a b : Poly) : Poly :=
  Poly.ofFn fun n =>
    let i := n / 2
    let a0 := a.get (2 * i)
    let a1 := a.get (2 * i + 1)
    let b0 := b.get (2 * i)
    let b1 := b.get (2 * i + 1)
    if n % 2 = 0 then modAdd (modMul a0 b0) (modMul (gamma i) (modMul a1 b1))
    else modAdd (modMul a0 b1) (modMul a1 b0)

/-- NTT rd (R420). -/
def execNtt (zero : BitVec 18) (rd : Slot) (s : State) : Host.Outcome State Fault Refusal :=
  finish s <|
    if zero ≠ 0 then .error .param s
    else .done (s.setSlot rd.toNat (ntt (s.slot rd.toNat)))

/-- INTT rd (R421). -/
def execIntt (zero : BitVec 18) (rd : Slot) (s : State) : Host.Outcome State Fault Refusal :=
  finish s <|
    if zero ≠ 0 then .error .param s
    else .done (s.setSlot rd.toNat (intt (s.slot rd.toNat)))

/-- VNTT rd (R422). -/
def execVntt (zero : BitVec 18) (rd : Slot) (s : State) : Host.Outcome State Fault Refusal :=
  finish s <|
    if zero ≠ 0 then .error .param s
    else if isVecBase rd = false then .error .slot s
    else .done (s.setVec rd.toNat fun i => ntt (s.vec rd.toNat i))

/-- VINTT rd (R423). -/
def execVintt (zero : BitVec 18) (rd : Slot) (s : State) : Host.Outcome State Fault Refusal :=
  finish s <|
    if zero ≠ 0 then .error .param s
    else if isVecBase rd = false then .error .slot s
    else .done (s.setVec rd.toNat fun i => intt (s.vec rd.toNat i))

/-- BASEMUL rd, rs1, rs2: both sources are read before rd is written (R424). -/
def execBasemul (zero : BitVec 6) (rs2 rs1 rd : Slot) (s : State) : Host.Outcome State Fault Refusal :=
  finish s <|
    if zero ≠ 0 then .error .param s
    else .done (s.setSlot rd.toNat (baseMul (s.slot rs1.toNat) (s.slot rs2.toNat)))

end Sys2Proof.Machine
end

