-- ==== Sys2Proof/Machine/PolyVec.lean ====
section
/-! DEFINITION. The polynomial and vector ALU (43_polyvec.md): PADD, PSUB, VADD, DOT, MATVEC, MATVECT. -/

namespace Sys2Proof.Machine

/-- Coefficient-wise add (R451, (+) of R560). -/
def polyAdd (a b : Poly) : Poly := Poly.ofFn fun i => modAdd (a.get i) (b.get i)

/-- Coefficient-wise subtract (R452, (-) of R560). -/
def polySub (a b : Poly) : Poly := Poly.ofFn fun i => modSub (a.get i) (b.get i)

/-- The sum of four Polys, accumulated from the zero polynomial (R454). -/
def polySum (f : Fin 4 → Poly) : Poly := polyAdd (polyAdd (polyAdd (polyAdd Poly.zero (f 0)) (f 1)) (f 2)) (f 3)

/-- Dot(v, w) = Σ_j BaseMul(v[j], w[j]) (R454, R560). -/
def dotProduct (v w : Fin 4 → Poly) : Poly := polySum fun j => baseMul (v j) (w j)

/-- MatVec(A, v)[i] = Σ_j BaseMul(A[i][j], v[j]) (R455, R560). -/
def matVec (A : Fin 4 → Fin 4 → Poly) (v : Fin 4 → Poly) : Fin 4 → Poly := fun i => polySum fun j => baseMul (A i j) (v j)

/-- MatVecT(A, v)[i] = Σ_j BaseMul(A[j][i], v[j]) (R456, R560). -/
def matVecT (A : Fin 4 → Fin 4 → Poly) (v : Fin 4 → Poly) : Fin 4 → Poly := fun i => polySum fun j => baseMul (A j i) (v j)

/-- The destination Vec of MATVEC and MATVECT meets the Mat or the source Vec (R457). -/
def overlapMat (rd rs1 rs2 : Slot) : Bool :=
  slotsMeet rd.toNat 4 rs1.toNat 16 || slotsMeet rd.toNat 4 rs2.toNat 4

/-- The destination of DOT lies inside a source Vec (R454, R457). -/
def overlapDot (rd rs1 rs2 : Slot) : Bool :=
  slotsMeet rd.toNat 1 rs1.toNat 4 || slotsMeet rd.toNat 1 rs2.toNat 4

/-- PADD rd, rs1, rs2 (R451). -/
def execPadd (zero : BitVec 6) (rs2 rs1 rd : Slot) (s : State) : Host.Outcome State Fault Refusal :=
  finish s <|
    if zero ≠ 0 then .error .param s
    else .done (s.setSlot rd.toNat (polyAdd (s.slot rs1.toNat) (s.slot rs2.toNat)))

/-- PSUB rd, rs1, rs2: rs1 minus rs2 (R452). -/
def execPsub (zero : BitVec 6) (rs2 rs1 rd : Slot) (s : State) : Host.Outcome State Fault Refusal :=
  finish s <|
    if zero ≠ 0 then .error .param s
    else .done (s.setSlot rd.toNat (polySub (s.slot rs1.toNat) (s.slot rs2.toNat)))

/-- VADD rd, rs1, rs2 (R453). -/
def execVadd (zero : BitVec 6) (rs2 rs1 rd : Slot) (s : State) : Host.Outcome State Fault Refusal :=
  finish s <|
    if zero ≠ 0 then .error .param s
    else if (isVecBase rd && isVecBase rs1 && isVecBase rs2) = false then .error .slot s
    else if overlapVadd rd rs1 rs2 then .error .overlap s
    else .done (s.setVec rd.toNat fun k => polyAdd (s.vec rs1.toNat k) (s.vec rs2.toNat k))

/-- DOT rd, rs1, rs2 (R454). -/
def execDot (zero : BitVec 6) (rs2 rs1 rd : Slot) (s : State) : Host.Outcome State Fault Refusal :=
  finish s <|
    if zero ≠ 0 then .error .param s
    else if (isVecBase rs1 && isVecBase rs2) = false then .error .slot s
    else if overlapDot rd rs1 rs2 then .error .overlap s
    else .done (s.setSlot rd.toNat (dotProduct (s.vec rs1.toNat) (s.vec rs2.toNat)))

/-- MATVEC rd, rs1, rs2 (R455). -/
def execMatvec (zero : BitVec 6) (rs2 rs1 rd : Slot) (s : State) : Host.Outcome State Fault Refusal :=
  finish s <|
    if zero ≠ 0 then .error .param s
    else if (isVecBase rd && isMatBase rs1 && isVecBase rs2) = false then .error .slot s
    else if overlapMat rd rs1 rs2 then .error .overlap s
    else .done (s.setVec rd.toNat (matVec (s.mat rs1.toNat) (s.vec rs2.toNat)))

/-- MATVECT rd, rs1, rs2 (R456). -/
def execMatvect (zero : BitVec 6) (rs2 rs1 rd : Slot) (s : State) : Host.Outcome State Fault Refusal :=
  finish s <|
    if zero ≠ 0 then .error .param s
    else if (isVecBase rd && isMatBase rs1 && isVecBase rs2) = false then .error .slot s
    else if overlapMat rd rs1 rs2 then .error .overlap s
    else .done (s.setVec rd.toNat (matVecT (s.mat rs1.toNat) (s.vec rs2.toNat)))

end Sys2Proof.Machine
end

