-- ==== Sys2Proof/Machine/Hash.lean ====
section
/-! DEFINITION. The hash feeder (44_hash.md): the requests of R21 and R483 over the free hash functions, and HASH. -/

namespace Sys2Proof.Machine

/-- SHA3_256(x), 32 bytes: H of R21. -/
def hashH (x : List Byte) : List Byte := (Config.sha3_256 x).toList

/-- SHA3_512(x), 64 bytes: G of R21. -/
def hashG (x : List Byte) : List Byte := (Config.sha3_512 x).toList

/-- SHAKE256(x, n): the first n output bytes (R20). -/
def shake256 (x : List Byte) (n : Nat) : List Byte := (List.range n).map (Config.shake256Stream x)

/-- SHAKE128(x)[0 .. n-1]: the first n bytes of the stream (R20, R481). -/
def shake128Prefix (x : List Byte) (n : Nat) : List Byte := (List.range n).map (Config.shake128 x)

/-- J(x) = SHAKE256(x, 32) (R21). -/
def hashJ (x : List Byte) : List Byte := shake256 x 32

/-- PRF(σ, N, η) = SHAKE256(σ ‖ byte(N), 64·η) (R21, R483). -/
def prf (seed : List Byte) (n eta : Nat) : List Byte := shake256 (seed ++ byteOf n) (64 * eta)

/-- XOF_A(ρ, i, j) = SHAKE128(ρ ‖ byte(j) ‖ byte(i)): column first, then row (R21, R483). -/
def xofA (rho : List Byte) (i j : Nat) : Nat → Byte := Config.shake128 (rho ++ byteOf j ++ byteOf i)

/-- The output length of HASH: 32, 64, or HOLEN (R309, R481). -/
def hashOutLen (fn : BitVec 3) (s : State) : Nat :=
  if fn = 0 then 32 else if fn = 1 then 64 else s.holen.toNat

/-- The output of HASH for selector fn (R309, R481). -/
def hashOutput (fn : BitVec 3) (x : List Byte) (outlen : Nat) : List Byte :=
  if fn = 0 then hashH x
  else if fn = 1 then hashG x
  else if fn = 2 then shake256 x outlen
  else shake128Prefix x outlen

/-- HASH: the whole input is read before any output byte is written (R481). -/
def execHash (zero : BitVec 3) (fn : BitVec 3) (regs : BitVec 18) (s : State) : Host.Outcome State Fault Refusal :=
  finish s <|
    if zero ≠ 0 ∨ regs ≠ 0 then .error .param s
    else if fn.toNat > 3 then .error .param s
    else if inByteRam s.hsrc.toNat s.hlen.toNat = false then .error .byte s
    else if inByteRam s.hdst.toNat (hashOutLen fn s) = false then .error .byte s
    else .done (s.setBram (s.bram.writeBytes s.hdst.toNat
      (hashOutput fn (s.bram.readBytes s.hsrc.toNat s.hlen.toNat) (hashOutLen fn s))))

end Sys2Proof.Machine
end

