-- ==== Sys2Proof/Machine/Sampling.lean ====
section
/-! DEFINITION. The sampling engine (45_sampling.md): SamplePolyCBD (R22), SampleNTT (R23), and CBD, CBDPRF, SNTT, SNTTB. -/

namespace Sys2Proof.Machine

/-- SamplePolyCBD(B, η): f[i] = (x − y) mod q, x and y the popcounts of the two η-bit halves of bits 2ηi .. 2ηi+2η−1 (R22). -/
def samplePolyCBD (B : List Byte) (eta : Nat) : Poly :=
  Poly.ofFn fun i =>
    let x := countBits eta fun j => bitAt B (2 * eta * i + j)
    let y := countBits eta fun j => bitAt B (2 * eta * i + eta + j)
    narrow (((x : Int) - (y : Int)) % 3329)

/-- How SampleNTT ends (R23). -/
inductive SampleResult where
  /-- 256 values were accepted, from the first `count` bytes -/
  | found (a : Poly) (count : Nat)
  /-- the stream gave no further chunk at byte `pos` and fewer than 256 values had been accepted -/
  | exhausted (pos : Nat)
  deriving DecidableEq, Repr

/-- Accept a candidate if it is below q and fewer than 256 values have been accepted (R23). -/
def acceptCandidate (acc : List Coef) (d : Nat) : List Coef :=
  if d < 3329 ∧ acc.length < 256 then acc ++ [narrow d] else acc

/-- Read one 3-byte chunk: d₁ = b₀ + 256·(b₁ mod 16), then d₂ = ⌊b₁/16⌋ + 16·b₂ (R23). -/
def acceptChunk (acc : List Coef) (b0 b1 b2 : Byte) : List Coef :=
  acceptCandidate (acceptCandidate acc (b0.toNat + 256 * (b1.toNat % 16))) (b1.toNat / 16 + 16 * b2.toNat)

/-- The loop of SampleNTT: `acc` holds a[0 .. j-1], `pos` the bytes consumed, and at most `avail` more chunks may be read. -/
def sampleLoop (S : Nat → Byte) : (avail pos : Nat) → (acc : List Coef) → SampleResult
  | 0, pos, acc => if acc.length < 256 then .exhausted pos else .found (Poly.ofFn fun i => acc.getD i 0) pos
  | avail + 1, pos, acc =>
    if acc.length < 256 then sampleLoop S avail (pos + 3) (acceptChunk acc (S pos) (S (pos + 1)) (S (pos + 2)))
    else .found (Poly.ofFn fun i => acc.getD i 0) pos

/-- SampleNTT on the first `avail` chunks of a stream (R23). -/
def sampleNTT (S : Nat → Byte) (avail : Nat) : SampleResult := sampleLoop S avail 0 []

/-- CBD rd, η, addr (R500). -/
def execCbd (addr : ByteAddr) (zero : BitVec 4) (eta : BitVec 1) (rd : Slot) (s : State) :
    Host.Outcome State Fault Refusal :=
  finish s <|
    if zero ≠ 0 then .error .param s
    else if inByteRam addr.toNat (64 * etaOf eta) = false then .error .byte s
    else .done (s.setSlot rd.toNat (samplePolyCBD (s.bram.readBytes addr.toNat (64 * etaOf eta)) (etaOf eta)))

/-- CBDPRF rd, η, addr: the nonce is used and then incremented mod 256 (R501, R123). -/
def execCbdprf (addr : ByteAddr) (zero : BitVec 4) (eta : BitVec 1) (rd : Slot) (s : State) :
    Host.Outcome State Fault Refusal :=
  finish s <|
    if zero ≠ 0 then .error .param s
    else if inByteRam addr.toNat 32 = false then .error .byte s
    else .done ((s.setSlot rd.toNat
        (samplePolyCBD (prf (s.bram.readBytes addr.toNat 32) s.nonce.toNat (etaOf eta)) (etaOf eta))).setNonce (s.nonce + 1))

/-- SNTT rd, row, col, addr: no completion step while the stream has not yielded 256 values (R502, R504, R505). -/
def execSntt (addr : ByteAddr) (zero : BitVec 1) (col row : BitVec 2) (rd : Slot) (s : State) :
    Host.Outcome State Fault Refusal :=
  finish s <|
    if zero ≠ 0 then .error .param s
    else if inByteRam addr.toNat 32 = false then .error .byte s
    else match sampleNTT (xofA (s.bram.readBytes addr.toNat 32) row.toNat col.toNat) s.chunks with
      | .found a count => .done ((s.setSlot rd.toNat a).setConsumed (min count (2 ^ 32 - 1)))
      | .exhausted _ => .pending

/-- SNTTB rd, addr: the stream is bram[addr .. 0x1FFF] (R503). -/
def execSnttb (addr : ByteAddr) (zero : BitVec 5) (rd : Slot) (s : State) : Host.Outcome State Fault Refusal :=
  finish s <|
    if zero ≠ 0 then .error .param s
    else match sampleNTT (fun k => s.bram.read (addr.toNat + k)) ((8192 - addr.toNat) / 3) with
      | .found a count => .done ((s.setSlot rd.toNat a).setConsumed count)
      | .exhausted pos => .error .stream (s.setConsumed pos)

end Sys2Proof.Machine
end

