-- ==== Sys2Proof/Machine/Codec.lean ====
section
/-! DEFINITION. The bit-packing datapath and compression (46_codec.md): ByteEncode, ByteDecode (R19, R530), Compress,
Decompress (R18), and ENC, DEC, CMPR, DCMP. -/

namespace Sys2Proof.Machine

/-- ByteEncode_d(F): 32·d bytes whose bit i·d + k is bit k of F[i] (R19). -/
def byteEncode (d : Nat) (F : Poly) : List Byte :=
  (List.range (32 * d)).map fun j =>
    BitVec.ofNat 8 (bitsToNat 8 fun b => (F.get ((8 * j + b) / d)).val.testBit ((8 * j + b) % d))

/-- ByteDecode_d(B)[i] = Σ_{k<d} bit(B, i·d+k)·2^k, the raw value (R19). -/
def byteDecode (d : Nat) (B : List Byte) (i : Nat) : Nat := bitsToNat d fun k => bitAt B (i * d + k)

/-- The Poly of the raw values, each reduced mod q; below 2^d ≤ 2048 the reduction changes nothing (R541). -/
def decodePoly (d : Nat) (B : List Byte) : Poly := Poly.ofFn fun i => narrow ((byteDecode d B i % 3329 : Nat) : Int)

/-- Some raw 12-bit value of B is ≥ q (R541, R560). -/
def decodeNoncanon (B : List Byte) : Bool := (List.range 256).any fun i => decide (3329 ≤ byteDecode 12 B i)

/-- Compress_d(x) = ⌊(2^(d+1)·x + q) / (2q)⌋ mod 2^d (R18). -/
def compress (d x : Nat) : Nat := ((2 ^ (d + 1) * x + 3329) / (2 * 3329)) % 2 ^ d

/-- Decompress_d(y) = ⌊(q·y + 2^(d−1)) / 2^d⌋ (R18). -/
def decompress (d y : Nat) : Nat := (3329 * y + 2 ^ (d - 1)) / 2 ^ d

/-- Compress_d coefficient by coefficient. -/
def compressPoly (d : Nat) (p : Poly) : Poly := Poly.ofFn fun i => narrow (compress d (p.get i).val)

/-- Decompress_d coefficient by coefficient. -/
def decompressPoly (d : Nat) (p : Poly) : Poly := Poly.ofFn fun i => narrow (decompress d (p.get i).val)

/-- Every coefficient fits in d bits (R540, R543). -/
def fitsWidth (d : Nat) (p : Poly) : Bool := (List.range 256).all fun i => decide ((p.get i).val < 2 ^ d)

/-- ENC rs, d, addr (R540). -/
def execEnc (addr : ByteAddr) (zero : BitVec 2) (dcode : BitVec 3) (rs : Slot) (s : State) :
    Host.Outcome State Fault Refusal :=
  finish s <|
    match widthOf dcode with
    | none => .error .param s
    | some d =>
      if zero ≠ 0 then .error .param s
      else if inByteRam addr.toNat (32 * d) = false then .error .byte s
      else if d < 12 ∧ fitsWidth d (s.slot rs.toNat) = false then .error .operand s
      else .done (s.setBram (s.bram.writeBytes addr.toNat (byteEncode d (s.slot rs.toNat))))

/-- DEC rd, d, addr: a 12-bit value ≥ q is reduced and sets NONCANON (R541). -/
def execDec (addr : ByteAddr) (zero : BitVec 2) (dcode : BitVec 3) (rd : Slot) (s : State) :
    Host.Outcome State Fault Refusal :=
  finish s <|
    match widthOf dcode with
    | none => .error .param s
    | some d =>
      if zero ≠ 0 then .error .param s
      else if inByteRam addr.toNat (32 * d) = false then .error .byte s
      else
        let B := s.bram.readBytes addr.toNat (32 * d)
        let nc := decide (d = 12) && decodeNoncanon B
        .done ((s.setSlot rd.toNat (decodePoly d B)).setStatus (s.status.flagNoncanon nc))

/-- CMPR rd, rs1, d (R542). -/
def execCmpr (zero : BitVec 3) (fn : BitVec 3) (rs2 rs1 rd : Slot) (s : State) : Host.Outcome State Fault Refusal :=
  finish s <|
    if zero ≠ 0 ∨ rs2 ≠ 0 then .error .param s
    else match compressWidthOf fn with
      | none => .error .param s
      | some d => .done (s.setSlot rd.toNat (compressPoly d (s.slot rs1.toNat)))

/-- DCMP rd, rs1, d (R543). -/
def execDcmp (zero : BitVec 3) (fn : BitVec 3) (rs2 rs1 rd : Slot) (s : State) : Host.Outcome State Fault Refusal :=
  finish s <|
    if zero ≠ 0 ∨ rs2 ≠ 0 then .error .param s
    else match compressWidthOf fn with
      | none => .error .param s
      | some d =>
        if fitsWidth d (s.slot rs1.toNat) = false then .error .operand s
        else .done (s.setSlot rd.toNat (decompressPoly d (s.slot rs1.toNat)))

end Sys2Proof.Machine
end

