-- ==== Sys2Proof/Machine/Kpke.lean ====
section
/-! DEFINITION. The K-PKE sequencer (47_kpke.md): the functions of R560-R566 and KPKE_KEYGEN, KPKE_ENC, KPKE_DEC. -/

namespace Sys2Proof.Machine

/-- Enc12v(v): four 384-byte encodings (R560). -/
def enc12v (v : Fin 4 → Poly) : List Byte := byteEncode 12 (v 0) ++ byteEncode 12 (v 1) ++ byteEncode 12 (v 2) ++ byteEncode 12 (v 3)

/-- The vector of Dec12v(B) (R560). -/
def dec12v (B : List Byte) : Fin 4 → Poly := fun k => decodePoly 12 (bytesAt B (384 * k.val) 384)

/-- The flag nc of Dec12v(B): some raw value is ≥ q (R560). -/
def dec12vNoncanon (B : List Byte) : Bool := (List.range 4).any fun k => decodeNoncanon (bytesAt B (384 * k) 384)

/-- NTTv (R560). -/
def nttVec (v : Fin 4 → Poly) : Fin 4 → Poly := fun i => ntt (v i)

/-- INTTv (R560). -/
def inttVec (v : Fin 4 → Poly) : Fin 4 → Poly := fun i => intt (v i)

/-- v (+) w for Vecs (R560). -/
def vecAdd (v w : Fin 4 → Poly) : Fin 4 → Poly := fun i => polyAdd (v i) (w i)

/-- GenA(ρ)[i][j] on the first `avail` chunks of its stream; none while the stream has not yielded 256 values (R560). -/
def genEntry (avail : Nat) (rho : List Byte) (i j : Nat) : Option Poly :=
  match sampleNTT (xofA rho i j) avail with
  | .found a _ => some a
  | .exhausted _ => none

/-- GenA(ρ): defined when each of the 16 streams has yielded 256 values (R560, R568, R505). -/
def genA (avail : Nat) (rho : List Byte) : Option (Fin 4 → Fin 4 → Poly) :=
  if (List.range 4).all (fun i => (List.range 4).all fun j => (genEntry avail rho i j).isSome) then
    some fun i j => (genEntry avail rho i.val j.val).getD Poly.zero
  else none

/-- SamplePolyCBD(PRF(seed, N, 2), 2), as every sequencer command draws it (R483, R562, R564). -/
def cbdPrf2 (seed : List Byte) (n : Nat) : Poly := samplePolyCBD (prf seed n 2) 2

/-- K-PKE.KeyGen: (ek_pke, dk_pke) from the 32-byte d (R562). dk_pke holds ŝ, the NTT-domain secret (90_conflicts.md C4). -/
def kpkeKeyGen (avail : Nat) (d : List Byte) : Option (List Byte × List Byte) :=
  let g := hashG (d ++ byteOf 4)
  let rho := bytesAt g 0 32
  let sigma := bytesAt g 32 32
  match genA avail rho with
  | none => none
  | some A =>
    let sHat := nttVec fun i => cbdPrf2 sigma i.val
    let eHat := nttVec fun i => cbdPrf2 sigma (i.val + 4)
    let tHat := vecAdd (matVec A sHat) eHat
    some (enc12v tHat ++ rho, enc12v sHat)

/-- ByteEncode_11(Compress_11(u[i])), i = 0..3, concatenated: c₁ of R564. -/
def encodeU (u : Fin 4 → Poly) : List Byte :=
  byteEncode 11 (compressPoly 11 (u 0)) ++ byteEncode 11 (compressPoly 11 (u 1)) ++
    byteEncode 11 (compressPoly 11 (u 2)) ++ byteEncode 11 (compressPoly 11 (u 3))

/-- μ[k] = Decompress_1(ByteDecode_1(m)[k]) (R564). -/
def messagePoly (m : List Byte) : Poly := decompressPoly 1 (decodePoly 1 m)

/-- The ciphertext of K-PKE.Encrypt with the matrix Â given (R564, steps 1 and 3 to 7). -/
def kpkeCiphertext (A : Fin 4 → Fin 4 → Poly) (ek m r : List Byte) : List Byte :=
  let tHat := dec12v (bytesAt ek 0 1536)
  let yHat := nttVec fun i => cbdPrf2 r i.val
  let e1 : Fin 4 → Poly := fun i => cbdPrf2 r (i.val + 4)
  let e2 := cbdPrf2 r 8
  let u := vecAdd (inttVec (matVecT A yHat)) e1
  let v := polyAdd (polyAdd (intt (dotProduct tHat yHat)) e2) (messagePoly m)
  encodeU u ++ byteEncode 5 (compressPoly 5 v)

/-- K-PKE.Encrypt: (c, nc) from ek, m and r (R564). -/
def kpkeEncrypt (avail : Nat) (ek m r : List Byte) : Option (List Byte × Bool) :=
  match genA avail (bytesAt ek 1536 32) with
  | none => none
  | some A => some (kpkeCiphertext A ek m r, dec12vNoncanon (bytesAt ek 0 1536))

/-- K-PKE.Decrypt: m from dk_pke and c (R566). No NTT is applied to the decoded ŝ (90_conflicts.md C4). -/
def kpkeDecrypt (dk c : List Byte) : List Byte :=
  let u' : Fin 4 → Poly := fun i => decompressPoly 11 (decodePoly 11 (bytesAt c (352 * i.val) 352))
  let v' := decompressPoly 5 (decodePoly 5 (bytesAt c 1408 160))
  let sHat := dec12v dk
  let w := polySub v' (intt (dotProduct sHat (nttVec u')))
  byteEncode 1 (compressPoly 1 w)

/-- KPKE_KEYGEN (R563). -/
def execKpkeKeygen (zero : BitVec 24) (s : State) : Host.Outcome State Fault Refusal :=
  finish s <|
    if zero ≠ 0 then .error .param s
    else match kpkeKeyGen s.chunks (s.mailbox Mailbox.seedD) with
      | none => .pending
      | some (ek, dkp) => .done (wipe [] ((s.setMailbox Mailbox.ek ek).setMailbox Mailbox.dkPke dkp))

/-- KPKE_ENC (R565). -/
def execKpkeEnc (zero : BitVec 24) (s : State) : Host.Outcome State Fault Refusal :=
  finish s <|
    if zero ≠ 0 then .error .param s
    else match kpkeEncrypt s.chunks (s.mailbox Mailbox.ek) (s.mailbox Mailbox.msg) (s.mailbox Mailbox.coins) with
      | none => .pending
      | some (c, nc) =>
        .done (wipe [] ((s.setMailbox Mailbox.ct c).setStatus (s.status.flagNoncanon nc)))

/-- KPKE_DEC (R567). -/
def execKpkeDec (zero : BitVec 24) (s : State) : Host.Outcome State Fault Refusal :=
  finish s <|
    if zero ≠ 0 then .error .param s
    else .done (wipe [] (s.setMailbox Mailbox.msg (kpkeDecrypt (s.mailbox Mailbox.dkPke) (s.mailbox Mailbox.ct))))

end Sys2Proof.Machine
end

