-- ==== Sys2Proof/Machine/MlKem.lean ====
section
/-! DEFINITION. The ML-KEM sequencer and the comparator (48_mlkem.md): R590-R596, R601, and MLKEM_KEYGEN, MLKEM_ENCAPS,
MLKEM_DECAPS, CTEQ. -/

namespace Sys2Proof.Machine

/-- CtEq(x, y): 1 when the OR of all byte differences is 0, else 0 (R601). -/
def ctEq (x y : List Byte) : Nat :=
  if (List.zipWith (fun a b => a ^^^ b) x y).foldl (fun diff v => diff ||| v) (0 : Byte) = 0 then 1 else 0

/-- Select(e, a, b): a when e = 1, b when e = 0 (R596). -/
def select (e : Nat) (a b : List Byte) : List Byte := if e = 1 then a else b

/-- ML-KEM.KeyGen_internal: (ek, dk) from d and z (R590). -/
def mlkemKeyGen (avail : Nat) (d z : List Byte) : Option (List Byte × List Byte) :=
  match kpkeKeyGen avail d with
  | none => none
  | some (ek, dkp) => some (ek, dkp ++ ek ++ hashH ek ++ z)

/-- ML-KEM.Encaps_internal: (K, c, nc) from ek and m (R592). -/
def mlkemEncaps (avail : Nat) (ek m : List Byte) : Option (List Byte × List Byte × Bool) :=
  let g := hashG (m ++ hashH ek)
  match kpkeEncrypt avail ek m (bytesAt g 32 32) with
  | none => none
  | some (c, nc) => some (bytesAt g 0 32, c, nc)

/-- ML-KEM.Decaps_internal: (K, nc) from dk and c (R594). The h field of dk is taken as stored. -/
def mlkemDecaps (avail : Nat) (dk c : List Byte) : Option (List Byte × Bool) :=
  let dkp := bytesAt dk 0 1536
  let ek := bytesAt dk 1536 1568
  let h := bytesAt dk 3104 32
  let z := bytesAt dk 3136 32
  let m' := kpkeDecrypt dkp c
  let g := hashG (m' ++ h)
  match kpkeEncrypt avail ek m' (bytesAt g 32 32) with
  | none => none
  | some (c', nc) => some (select (ctEq c c') (bytesAt g 0 32) (hashJ (z ++ c)), nc)

/-- MLKEM_KEYGEN (R591). -/
def execMlkemKeygen (zero : BitVec 24) (s : State) : Host.Outcome State Fault Refusal :=
  finish s <|
    if zero ≠ 0 then .error .param s
    else match mlkemKeyGen s.chunks (s.mailbox Mailbox.seedD) (s.mailbox Mailbox.seedZ) with
      | none => .pending
      | some (ek, dk) =>
        .done (wipe [Mailbox.seedD, Mailbox.seedZ] ((s.setMailbox Mailbox.ek ek).setMailbox Mailbox.dk dk))

/-- MLKEM_ENCAPS (R593). -/
def execMlkemEncaps (zero : BitVec 24) (s : State) : Host.Outcome State Fault Refusal :=
  finish s <|
    if zero ≠ 0 then .error .param s
    else match mlkemEncaps s.chunks (s.mailbox Mailbox.ek) (s.mailbox Mailbox.msg) with
      | none => .pending
      | some (k, c, nc) =>
        .done (wipe [Mailbox.msg, Mailbox.coins]
          (((s.setMailbox Mailbox.ct c).setMailbox Mailbox.kout k).setStatus (s.status.flagNoncanon nc)))

/-- MLKEM_DECAPS (R595). -/
def execMlkemDecaps (zero : BitVec 24) (s : State) : Host.Outcome State Fault Refusal :=
  finish s <|
    if zero ≠ 0 then .error .param s
    else match mlkemDecaps s.chunks (s.mailbox Mailbox.dk) (s.mailbox Mailbox.ct) with
      | none => .pending
      | some (k, nc) =>
        .done (wipe [Mailbox.coins] ((s.setMailbox Mailbox.kout k).setStatus (s.status.flagNoncanon nc)))

/-- CTEQ: compare HLEN bytes at HSRC and at HDST (R600). -/
def execCteq (zero : BitVec 24) (s : State) : Host.Outcome State Fault Refusal :=
  finish s <|
    if zero ≠ 0 then .error .param s
    else if (inByteRam s.hsrc.toNat s.hlen.toNat && inByteRam s.hdst.toNat s.hlen.toNat) = false then .error .byte s
    else .done (s.setRes
      (ctEq (s.bram.readBytes s.hsrc.toNat s.hlen.toNat) (s.bram.readBytes s.hdst.toNat s.hlen.toNat)))

end Sys2Proof.Machine
end

