-- ==== Sys2Proof/Machine/Control.lean ====
section
/-! DEFINITION. The control commands (49_control.md): NOP and WIPE. -/

namespace Sys2Proof.Machine

/-- NOP: nothing but the lifecycle (R620). -/
def execNop (zero : BitVec 24) (s : State) : Host.Outcome State Fault Refusal :=
  finish s <|
    if zero ≠ 0 then .error .param s
    else .done s

/-- WIPE: every slot cell and every byte of the byte RAM set to 0 (R621). -/
def execWipe (zero : BitVec 24) (s : State) : Host.Outcome State Fault Refusal :=
  finish s <|
    if zero ≠ 0 then .error .param s
    else .done ((s.setSlots zeroSlots).setBram [])

end Sys2Proof.Machine
end

