-- ==== Sys2Proof/Machine/Bus.lean ====
section
/-! DEFINITION. The host bus (20_memory.md, 10_state.md R101-R126): the address map, host reads, host writes, reset, and one
step of the host. -/

namespace Sys2Proof.Machine

/-- A register of the map R102. -/
inductive Reg where
  | id | ctrl | status | cmd | opa | opb | opx | res | nonce | consumed | hsrc | hlen | hdst | holen
  deriving DecidableEq, Repr

/-- Where an aligned host address lies (R201). -/
inductive Region where
  /-- a register of R102 -/
  | reg (r : Reg)
  /-- the reserved register space (R126) -/
  | reserved
  /-- coefficient i of slot k (R210) -/
  | slot (k i : Nat)
  /-- byte-RAM word at byte address k (R220) -/
  | bram (k : Nat)
  /-- ROM word k (R230) -/
  | rom (k : Nat)
  /-- an unmapped address (R202) -/
  | unmapped
  deriving DecidableEq, Repr

/-- The register at a register offset (R102). -/
def regAt (off : Nat) : Option Reg :=
  if off % 4 = 0 then
    [Reg.id, .ctrl, .status, .cmd, .opa, .opb, .opx, .res, .nonce, .consumed, .hsrc, .hlen, .hdst, .holen][off / 4]?
  else none

/-- The host address map (R201, R210, R220, R230). -/
def regionOf (addr : HostAddr) : Region :=
  let a := addr.toNat
  if a < 0x10000 then
    match regAt a with
    | some r => .reg r
    | none => .reserved
  else if a < 0x20000 then .slot ((a - 0x10000) / 1024) ((a - 0x10000) % 1024 / 4)
  else if a < 0x22000 then .bram (a - 0x20000)
  else if 0x30000 ≤ a ∧ a < 0x30600 then .rom ((a - 0x30000) / 4)
  else .unmapped

/-- addr[1:0] = 00 (R204). -/
def isAligned (addr : HostAddr) : Bool := decide (addr.toNat % 4 = 0)

/-- ROM word k: ZETA[0..127], then GAMMA[0..127], then BITREV7[0..127] (R230). -/
def romWord (k : Nat) : Word :=
  if k < 128 then BitVec.ofNat 32 (zeta k).val
  else if k < 256 then BitVec.ofNat 32 (gamma (k - 128)).val
  else BitVec.ofNat 32 (bitrev7 (k - 256))

/-- The word a read of a register returns; the bits above its field read 0 (R101, R102, R110-R125). -/
def readReg (r : Reg) (s : State) : Word :=
  match r with
  | .id => Config.idValue
  | .ctrl => (BitVec.ofBool s.ie).zeroExtend 32
  | .status => s.status.toWord
  | .cmd => s.cmd
  | .opa => s.opa.zeroExtend 32
  | .opb => s.opb.zeroExtend 32
  | .opx => s.opx
  | .res => s.res.zeroExtend 32
  | .nonce => s.nonce.zeroExtend 32
  | .consumed => s.consumed
  | .hsrc => s.hsrc.zeroExtend 32
  | .hlen => s.hlen.zeroExtend 32
  | .hdst => s.hdst.zeroExtend 32
  | .holen => s.holen.zeroExtend 32

/-- {bram[k+3], bram[k+2], bram[k+1], bram[k]} (R203, R220). -/
def readLanes (m : Memory) (k : Nat) : Word := m.read (k + 3) ++ m.read (k + 2) ++ m.read (k + 1) ++ m.read k

/-- bram[k+b] <- data[8b+7:8b] for every lane b with wstrb[b] = 1 (R220). -/
def writeLanes (m : Memory) (k : Nat) (data : Word) (wstrb : BitVec 4) : Memory :=
  let m := if wstrb.getLsbD 0 then m.write k (data.extractLsb' 0 8) else m
  let m := if wstrb.getLsbD 1 then m.write (k + 1) (data.extractLsb' 8 8) else m
  let m := if wstrb.getLsbD 2 then m.write (k + 2) (data.extractLsb' 16 8) else m
  if wstrb.getLsbD 3 then m.write (k + 3) (data.extractLsb' 24 8) else m

/-- slot[k][i] <- c (R212). -/
def State.setCoef (s : State) (k i : Nat) (c : Coef) : State :=
  s.setSlot k (Poly.ofFn fun n => if n = i then c else (s.slot k).get n)

/-- A refused access: ACCERR and nothing else (R115). -/
def State.refuse (s : State) : State := s.setStatus s.status.flagAccerr

/-- The reset state of R801 in every field of the core; the host's queue, its last read and the index of the free values
are not the core's (R800, R802, R803; log 5). -/
def resetCore (s : State) : State := { State.reset with inputs := s.inputs, rdata := s.rdata, accepts := s.accepts }

/-- HostRead(addr): the data returned and the state after (R200-R204, R206, R211, R214, R220, R230). A refused read sets ACCERR,
R206 notwithstanding: DEDUCED, log 9. The alignment is checked before the region, so a misaligned read of the reserved register
space or of unmapped space sets ACCERR too: DEDUCED, log 15. -/
def hostRead (addr : HostAddr) (s : State) : Word × State :=
  if isAligned addr = false then (0, s.refuse)
  else match regionOf addr with
    | .reg r => (readReg r s, s)
    | .reserved => (0, s)
    | .slot k i => if s.status.busy then (0, s.refuse) else (BitVec.ofNat 32 ((s.slot k).get i).val, s)
    | .bram k => if s.status.busy then (0, s.refuse) else (readLanes s.bram k, s)
    | .rom k => (romWord k, s)
    | .unmapped => (0, s)

/-- A write of an operand register: ignored with ACCERR while busy (R207), else the field's bits are stored (R101). -/
def writeOperand (s t : State) : State := if s.status.busy then s.refuse else t

/-- A full-word host write of a register (R102, R111, R112, R116, R118-R125, R207, R802). -/
def writeReg (r : Reg) (data : Word) (s : State) : State :=
  match r with
  | .id => s
  | .ctrl => if data.getLsbD 1 then resetCore s else { s with ie := data.getLsbD 0 }
  | .status => s.setStatus (s.status.writeOneToClear data)
  | .cmd => if s.status.busy then s.setStatus s.status.flagOverrun else acceptCommand data s
  | .opa => writeOperand s { s with opa := data.extractLsb' 0 16 }
  | .opb => writeOperand s { s with opb := data.extractLsb' 0 16 }
  | .opx => writeOperand s { s with opx := data }
  | .res => s
  | .nonce => writeOperand s { s with nonce := data.extractLsb' 0 8 }
  | .consumed => s
  | .hsrc => writeOperand s { s with hsrc := data.extractLsb' 0 13 }
  | .hlen => writeOperand s { s with hlen := data.extractLsb' 0 14 }
  | .hdst => writeOperand s { s with hdst := data.extractLsb' 0 13 }
  | .holen => writeOperand s { s with holen := data.extractLsb' 0 14 }

/-- A register write with a strobe that is neither 0000 nor 1111: ignored, with ACCERR (R205, R115), a read-only register
not excepted; on CMD while busy OVERRUN is set beside it (R116, R207). DEDUCED where R110, R116 or R207 says otherwise: log 4;
for CTRL and STATUS: log 10. -/
def partialRegWrite (r : Reg) (s : State) : State :=
  match r with
  | .id => s.refuse
  | .ctrl => s.refuse
  | .status => s.refuse
  | .cmd => if s.status.busy then (s.setStatus s.status.flagOverrun).refuse else s.refuse
  | .opa => s.refuse
  | .opb => s.refuse
  | .opx => s.refuse
  | .res => s.refuse
  | .nonce => s.refuse
  | .consumed => s.refuse
  | .hsrc => s.refuse
  | .hlen => s.refuse
  | .hdst => s.refuse
  | .holen => s.refuse

/-- HostWrite(addr, data, wstrb) (R200-R207, R212-R214, R220, R230, R706). What the model settles, DEDUCED: the
alignment is checked before the strobe and the region, so a misaligned write sets ACCERR at strobe 0000 too (log 4) and in the
reserved register space and unmapped space too, and never sets OVERRUN (log 15); an aligned write with strobe 0000 sets no flag
anywhere, also at an operand register or CMD while busy and for a slot value ≥ q (log 13); a partial strobe sets no flag in the
reserved register space and in unmapped space (R126, R202, log 14). -/
def hostWrite (addr : HostAddr) (data : Word) (wstrb : BitVec 4) (s : State) : State :=
  if isAligned addr = false then s.refuse
  else if wstrb = 0 then s
  else match regionOf addr with
    | .reg r => if wstrb = 0xF then writeReg r data s else partialRegWrite r s
    | .reserved => s
    | .slot k i =>
      if s.status.busy ∨ wstrb ≠ 0xF ∨ 3329 ≤ data.toNat then s.refuse
      else s.setCoef k i (narrow data.toNat)
    | .bram k => if s.status.busy then s.refuse else s.setBram (writeLanes s.bram k data wstrb)
    | .rom _ => s.refuse
    | .unmapped => s

/-- One thing the host does (R200, R800). -/
def applyHostOp (op : HostOp) (s : State) : State :=
  match op with
  | .read addr => { (hostRead addr s).2 with rdata := (hostRead addr s).1 }
  | .write addr data wstrb => hostWrite addr data wstrb s
  | .reset => resetCore s

/-- One step of the host: the oldest pending transaction, or nothing when it sends none; one host step of BUSY_STEPS passes
(R850, logs 2 and 5). -/
def hostStep (s : State) : State :=
  let s := { s with busyLeft := s.busyLeft - 1 }
  match s.inputs with
  | [] => s
  | op :: rest => applyHostOp op { s with inputs := rest }

end Sys2Proof.Machine
end

