-- ==== Sys2Proof/Syntax.lean ====
section
/-! DEFINITION. The commands of the core (30_encoding.md R300-R310): one constructor per row of the opcode table. Every
field of the 32-bit word is kept, the must-be-zero bits too, because a word that sets one of them still selects its command,
which then ends in CmdError(PARAM) (R310, R312). -/

namespace Sys2Proof

/-- One command word with an assigned opcode, split into its fields (R301-R303, R310). -/
inductive Instr where
  /-- 0x00 NOP, format S (R620); `zero` is cmd[31:8]. -/
  | nop (zero : BitVec 24)
  /-- 0x01 MADD, format S (R405). -/
  | madd (zero : BitVec 24)
  /-- 0x02 MSUB, format S (R406). -/
  | msub (zero : BitVec 24)
  /-- 0x03 MMUL, format S (R407). -/
  | mmul (zero : BitVec 24)
  /-- 0x04 MRED, format S (R408). -/
  | mred (zero : BitVec 24)
  /-- 0x10 NTT, format P (R420); `zero` is cmd[31:14]. -/
  | ntt (zero : BitVec 18) (rd : Slot)
  /-- 0x11 INTT, format P (R421). -/
  | intt (zero : BitVec 18) (rd : Slot)
  /-- 0x12 VNTT, format P, Vec base rd (R422). -/
  | vntt (zero : BitVec 18) (rd : Slot)
  /-- 0x13 VINTT, format P, Vec base rd (R423). -/
  | vintt (zero : BitVec 18) (rd : Slot)
  /-- 0x14 BASEMUL, format P (R424); `zero` is cmd[31:26]. -/
  | basemul (zero : BitVec 6) (rs2 rs1 rd : Slot)
  /-- 0x20 PADD, format P (R451). -/
  | padd (zero : BitVec 6) (rs2 rs1 rd : Slot)
  /-- 0x21 PSUB, format P (R452). -/
  | psub (zero : BitVec 6) (rs2 rs1 rd : Slot)
  /-- 0x22 VADD, format P, three Vec bases (R453). -/
  | vadd (zero : BitVec 6) (rs2 rs1 rd : Slot)
  /-- 0x23 DOT, format P, rd a Poly, rs1 and rs2 Vec bases (R454). -/
  | dot (zero : BitVec 6) (rs2 rs1 rd : Slot)
  /-- 0x24 MATVEC, format P, rd and rs2 Vec bases, rs1 a Mat base (R455). -/
  | matvec (zero : BitVec 6) (rs2 rs1 rd : Slot)
  /-- 0x25 MATVECT, format P, rd and rs2 Vec bases, rs1 a Mat base (R456). -/
  | matvect (zero : BitVec 6) (rs2 rs1 rd : Slot)
  /-- 0x30 CBD, format M (R500); `zero` is p[4:1] = cmd[18:15]. -/
  | cbd (addr : ByteAddr) (zero : BitVec 4) (eta : BitVec 1) (rd : Slot)
  /-- 0x31 CBDPRF, format M (R501). -/
  | cbdprf (addr : ByteAddr) (zero : BitVec 4) (eta : BitVec 1) (rd : Slot)
  /-- 0x32 SNTT, format M (R502); `zero` is p[4], `col` is j = p[3:2], `row` is i = p[1:0]. -/
  | sntt (addr : ByteAddr) (zero : BitVec 1) (col row : BitVec 2) (rd : Slot)
  /-- 0x33 SNTTB, format M (R503); `zero` is p[4:0]. -/
  | snttb (addr : ByteAddr) (zero : BitVec 5) (rd : Slot)
  /-- 0x40 ENC, format M (R540); `zero` is p[4:3], rs the source slot. -/
  | enc (addr : ByteAddr) (zero : BitVec 2) (dcode : BitVec 3) (rs : Slot)
  /-- 0x41 DEC, format M (R541). -/
  | dec (addr : ByteAddr) (zero : BitVec 2) (dcode : BitVec 3) (rd : Slot)
  /-- 0x42 CMPR, format P (R542); `zero` is cmd[31:29], `fn` the width code, `rs2` must be zero. -/
  | cmpr (zero : BitVec 3) (fn : BitVec 3) (rs2 rs1 rd : Slot)
  /-- 0x43 DCMP, format P (R543). -/
  | dcmp (zero : BitVec 3) (fn : BitVec 3) (rs2 rs1 rd : Slot)
  /-- 0x50 HASH, format P (R481); `zero` is cmd[31:29], `regs` is cmd[25:8], both must be zero. -/
  | hash (zero : BitVec 3) (fn : BitVec 3) (regs : BitVec 18)
  /-- 0x51 CTEQ, format S (R600). -/
  | cteq (zero : BitVec 24)
  /-- 0x60 KPKE_KEYGEN, format S (R563). -/
  | kpkeKeygen (zero : BitVec 24)
  /-- 0x61 KPKE_ENC, format S (R565). -/
  | kpkeEnc (zero : BitVec 24)
  /-- 0x62 KPKE_DEC, format S (R567). -/
  | kpkeDec (zero : BitVec 24)
  /-- 0x68 MLKEM_KEYGEN, format S (R591). -/
  | mlkemKeygen (zero : BitVec 24)
  /-- 0x69 MLKEM_ENCAPS, format S (R593). -/
  | mlkemEncaps (zero : BitVec 24)
  /-- 0x6A MLKEM_DECAPS, format S (R595). -/
  | mlkemDecaps (zero : BitVec 24)
  /-- 0x7F WIPE, format S (R621). -/
  | wipe (zero : BitVec 24)
  deriving DecidableEq, Repr

end Sys2Proof
end

