-- ==== Sys2Proof/WellFormed.lean ====
section
/-! DEFINITION. Which command words break no static encoding rule (R310, R312): every must-be-zero field is zero, the width
code names a width the command allows, and the hash selector is not reserved. A word that fails this check is still a
command: it completes with CmdError(PARAM). -/

namespace Sys2Proof

/-- The command breaks no static encoding rule of R312. -/
def Instr.wf : Instr → Bool
  | .nop zero => zero == 0
  | .madd zero => zero == 0
  | .msub zero => zero == 0
  | .mmul zero => zero == 0
  | .mred zero => zero == 0
  | .ntt zero _ => zero == 0
  | .intt zero _ => zero == 0
  | .vntt zero _ => zero == 0
  | .vintt zero _ => zero == 0
  | .basemul zero _ _ _ => zero == 0
  | .padd zero _ _ _ => zero == 0
  | .psub zero _ _ _ => zero == 0
  | .vadd zero _ _ _ => zero == 0
  | .dot zero _ _ _ => zero == 0
  | .matvec zero _ _ _ => zero == 0
  | .matvect zero _ _ _ => zero == 0
  | .cbd _ zero _ _ => zero == 0
  | .cbdprf _ zero _ _ => zero == 0
  | .sntt _ zero _ _ _ => zero == 0
  | .snttb _ zero _ => zero == 0
  | .enc _ zero dcode _ => zero == 0 && decide (dcode.toNat ≤ 5)
  | .dec _ zero dcode _ => zero == 0 && decide (dcode.toNat ≤ 5)
  | .cmpr zero fn rs2 _ _ => zero == 0 && rs2 == 0 && decide (fn.toNat ≤ 4)
  | .dcmp zero fn rs2 _ _ => zero == 0 && rs2 == 0 && decide (fn.toNat ≤ 4)
  | .hash zero fn regs => zero == 0 && regs == 0 && decide (fn.toNat ≤ 3)
  | .cteq zero => zero == 0
  | .kpkeKeygen zero => zero == 0
  | .kpkeEnc zero => zero == 0
  | .kpkeDec zero => zero == 0
  | .mlkemKeygen zero => zero == 0
  | .mlkemEncaps zero => zero == 0
  | .mlkemDecaps zero => zero == 0
  | .wipe zero => zero == 0

end Sys2Proof
end

