-- ==== Sys2Proof/Decode.lean ====
section
/-! DEFINITION. Decoding a 32-bit command word (R300-R310), the encoder written from the same formats, and the opcode table
of R310 as data. The opcode in bits [7:0] alone selects the command; a word with an unassigned opcode is rejected by name
(the core then completes it with CmdError(ILLEGAL), R311). -/

namespace Sys2Proof

/-- Why a word is no command. -/
inductive DecodeError where
  /-- bits [7:0] are one of the 223 unassigned opcodes (R311) -/
  | unassignedOpcode (op : BitVec 8)
  deriving DecidableEq, Repr

/-- Bits [lo+len-1 : lo] of a command word (R9). -/
def field (w : Word) (lo len : Nat) : BitVec len := w.extractLsb' lo len

/-- Decode a command word: formats S (R301), P (R302) and M (R303), opcode map R310. -/
def decode (w : Word) : Except DecodeError Instr :=
  match field w 0 8 with
  | 0x00#8 => .ok (.nop (field w 8 24))
  | 0x01#8 => .ok (.madd (field w 8 24))
  | 0x02#8 => .ok (.msub (field w 8 24))
  | 0x03#8 => .ok (.mmul (field w 8 24))
  | 0x04#8 => .ok (.mred (field w 8 24))
  | 0x10#8 => .ok (.ntt (field w 14 18) (field w 8 6))
  | 0x11#8 => .ok (.intt (field w 14 18) (field w 8 6))
  | 0x12#8 => .ok (.vntt (field w 14 18) (field w 8 6))
  | 0x13#8 => .ok (.vintt (field w 14 18) (field w 8 6))
  | 0x14#8 => .ok (.basemul (field w 26 6) (field w 20 6) (field w 14 6) (field w 8 6))
  | 0x20#8 => .ok (.padd (field w 26 6) (field w 20 6) (field w 14 6) (field w 8 6))
  | 0x21#8 => .ok (.psub (field w 26 6) (field w 20 6) (field w 14 6) (field w 8 6))
  | 0x22#8 => .ok (.vadd (field w 26 6) (field w 20 6) (field w 14 6) (field w 8 6))
  | 0x23#8 => .ok (.dot (field w 26 6) (field w 20 6) (field w 14 6) (field w 8 6))
  | 0x24#8 => .ok (.matvec (field w 26 6) (field w 20 6) (field w 14 6) (field w 8 6))
  | 0x25#8 => .ok (.matvect (field w 26 6) (field w 20 6) (field w 14 6) (field w 8 6))
  | 0x30#8 => .ok (.cbd (field w 19 13) (field w 15 4) (field w 14 1) (field w 8 6))
  | 0x31#8 => .ok (.cbdprf (field w 19 13) (field w 15 4) (field w 14 1) (field w 8 6))
  | 0x32#8 => .ok (.sntt (field w 19 13) (field w 18 1) (field w 16 2) (field w 14 2) (field w 8 6))
  | 0x33#8 => .ok (.snttb (field w 19 13) (field w 14 5) (field w 8 6))
  | 0x40#8 => .ok (.enc (field w 19 13) (field w 17 2) (field w 14 3) (field w 8 6))
  | 0x41#8 => .ok (.dec (field w 19 13) (field w 17 2) (field w 14 3) (field w 8 6))
  | 0x42#8 => .ok (.cmpr (field w 29 3) (field w 26 3) (field w 20 6) (field w 14 6) (field w 8 6))
  | 0x43#8 => .ok (.dcmp (field w 29 3) (field w 26 3) (field w 20 6) (field w 14 6) (field w 8 6))
  | 0x50#8 => .ok (.hash (field w 29 3) (field w 26 3) (field w 8 18))
  | 0x51#8 => .ok (.cteq (field w 8 24))
  | 0x60#8 => .ok (.kpkeKeygen (field w 8 24))
  | 0x61#8 => .ok (.kpkeEnc (field w 8 24))
  | 0x62#8 => .ok (.kpkeDec (field w 8 24))
  | 0x68#8 => .ok (.mlkemKeygen (field w 8 24))
  | 0x69#8 => .ok (.mlkemEncaps (field w 8 24))
  | 0x6A#8 => .ok (.mlkemDecaps (field w 8 24))
  | 0x7F#8 => .ok (.wipe (field w 8 24))
  | op => .error (.unassignedOpcode op)

/-- The word of a command: its fields, most significant first (R301-R303, R310). -/
def encode : Instr → Word
  | .nop zero => zero ++ 0x00#8
  | .madd zero => zero ++ 0x01#8
  | .msub zero => zero ++ 0x02#8
  | .mmul zero => zero ++ 0x03#8
  | .mred zero => zero ++ 0x04#8
  | .ntt zero rd => zero ++ rd ++ 0x10#8
  | .intt zero rd => zero ++ rd ++ 0x11#8
  | .vntt zero rd => zero ++ rd ++ 0x12#8
  | .vintt zero rd => zero ++ rd ++ 0x13#8
  | .basemul zero rs2 rs1 rd => zero ++ rs2 ++ rs1 ++ rd ++ 0x14#8
  | .padd zero rs2 rs1 rd => zero ++ rs2 ++ rs1 ++ rd ++ 0x20#8
  | .psub zero rs2 rs1 rd => zero ++ rs2 ++ rs1 ++ rd ++ 0x21#8
  | .vadd zero rs2 rs1 rd => zero ++ rs2 ++ rs1 ++ rd ++ 0x22#8
  | .dot zero rs2 rs1 rd => zero ++ rs2 ++ rs1 ++ rd ++ 0x23#8
  | .matvec zero rs2 rs1 rd => zero ++ rs2 ++ rs1 ++ rd ++ 0x24#8
  | .matvect zero rs2 rs1 rd => zero ++ rs2 ++ rs1 ++ rd ++ 0x25#8
  | .cbd addr zero eta rd => addr ++ zero ++ eta ++ rd ++ 0x30#8
  | .cbdprf addr zero eta rd => addr ++ zero ++ eta ++ rd ++ 0x31#8
  | .sntt addr zero col row rd => addr ++ zero ++ col ++ row ++ rd ++ 0x32#8
  | .snttb addr zero rd => addr ++ zero ++ rd ++ 0x33#8
  | .enc addr zero dcode rs => addr ++ zero ++ dcode ++ rs ++ 0x40#8
  | .dec addr zero dcode rd => addr ++ zero ++ dcode ++ rd ++ 0x41#8
  | .cmpr zero fn rs2 rs1 rd => zero ++ fn ++ rs2 ++ rs1 ++ rd ++ 0x42#8
  | .dcmp zero fn rs2 rs1 rd => zero ++ fn ++ rs2 ++ rs1 ++ rd ++ 0x43#8
  | .hash zero fn regs => zero ++ fn ++ regs ++ 0x50#8
  | .cteq zero => zero ++ 0x51#8
  | .kpkeKeygen zero => zero ++ 0x60#8
  | .kpkeEnc zero => zero ++ 0x61#8
  | .kpkeDec zero => zero ++ 0x62#8
  | .mlkemKeygen zero => zero ++ 0x68#8
  | .mlkemEncaps zero => zero ++ 0x69#8
  | .mlkemDecaps zero => zero ++ 0x6A#8
  | .wipe zero => zero ++ 0x7F#8

/-- What the decoder reads from an instruction whose bits, as the opcode table numbers them, are `w`. A command is one
32-bit word; the bits at `nbits` and above are zero. -/
def decodeTableWord (nbits w : Nat) : Option Instr :=
  match decode (BitVec.ofNat 32 (w % 2 ^ nbits)) with
  | .ok i => some i
  | .error _ => none

/-- One row of the opcode map of R310: the mnemonic, the opcode (mask 0x000000FF) and the must-be-zero mask. -/
structure OpcodeRow where
  mnemonic : String
  opcode : BitVec 8
  mustBeZero : Word
  deriving DecidableEq, Repr

/-- The opcode map of R310. -/
def opcodeTable : List OpcodeRow :=
  [⟨"NOP", 0x00#8, 0xFFFFFF00#32⟩,
   ⟨"MADD", 0x01#8, 0xFFFFFF00#32⟩,
   ⟨"MSUB", 0x02#8, 0xFFFFFF00#32⟩,
   ⟨"MMUL", 0x03#8, 0xFFFFFF00#32⟩,
   ⟨"MRED", 0x04#8, 0xFFFFFF00#32⟩,
   ⟨"NTT", 0x10#8, 0xFFFFC000#32⟩,
   ⟨"INTT", 0x11#8, 0xFFFFC000#32⟩,
   ⟨"VNTT", 0x12#8, 0xFFFFC000#32⟩,
   ⟨"VINTT", 0x13#8, 0xFFFFC000#32⟩,
   ⟨"BASEMUL", 0x14#8, 0xFC000000#32⟩,
   ⟨"PADD", 0x20#8, 0xFC000000#32⟩] ++
  [⟨"PSUB", 0x21#8, 0xFC000000#32⟩,
   ⟨"VADD", 0x22#8, 0xFC000000#32⟩,
   ⟨"DOT", 0x23#8, 0xFC000000#32⟩,
   ⟨"MATVEC", 0x24#8, 0xFC000000#32⟩,
   ⟨"MATVECT", 0x25#8, 0xFC000000#32⟩,
   ⟨"CBD", 0x30#8, 0x00078000#32⟩,
   ⟨"CBDPRF", 0x31#8, 0x00078000#32⟩,
   ⟨"SNTT", 0x32#8, 0x00040000#32⟩,
   ⟨"SNTTB", 0x33#8, 0x0007C000#32⟩,
   ⟨"ENC", 0x40#8, 0x00060000#32⟩,
   ⟨"DEC", 0x41#8, 0x00060000#32⟩] ++
  [⟨"CMPR", 0x42#8, 0xE3F00000#32⟩,
   ⟨"DCMP", 0x43#8, 0xE3F00000#32⟩,
   ⟨"HASH", 0x50#8, 0xE3FFFF00#32⟩,
   ⟨"CTEQ", 0x51#8, 0xFFFFFF00#32⟩,
   ⟨"KPKE_KEYGEN", 0x60#8, 0xFFFFFF00#32⟩,
   ⟨"KPKE_ENC", 0x61#8, 0xFFFFFF00#32⟩,
   ⟨"KPKE_DEC", 0x62#8, 0xFFFFFF00#32⟩,
   ⟨"MLKEM_KEYGEN", 0x68#8, 0xFFFFFF00#32⟩,
   ⟨"MLKEM_ENCAPS", 0x69#8, 0xFFFFFF00#32⟩,
   ⟨"MLKEM_DECAPS", 0x6A#8, 0xFFFFFF00#32⟩,
   ⟨"WIPE", 0x7F#8, 0xFFFFFF00#32⟩]

/-- The row of R310 that a word's opcode selects. -/
def opcodeRow? (w : Word) : Option OpcodeRow := opcodeTable.find? fun r => r.opcode == field w 0 8

end Sys2Proof
end

