-- ==== Sys2Proof/Machine/Dispatch.lean ====
section
/-! DEFINITION. The completion step of each command (R121 step 2): one arm per constructor of Instr. -/

namespace Sys2Proof.Machine

def exec (i : Instr) (s : State) : Host.Outcome State Fault Refusal :=
  match i with
  | .nop zero => Sys2Proof.Machine.execNop zero s
  | .madd zero => Sys2Proof.Machine.execMadd zero s
  | .msub zero => Sys2Proof.Machine.execMsub zero s
  | .mmul zero => Sys2Proof.Machine.execMmul zero s
  | .mred zero => Sys2Proof.Machine.execMred zero s
  | .ntt zero rd => Sys2Proof.Machine.execNtt zero rd s
  | .intt zero rd => Sys2Proof.Machine.execIntt zero rd s
  | .vntt zero rd => Sys2Proof.Machine.execVntt zero rd s
  | .vintt zero rd => Sys2Proof.Machine.execVintt zero rd s
  | .basemul zero rs2 rs1 rd => Sys2Proof.Machine.execBasemul zero rs2 rs1 rd s
  | .padd zero rs2 rs1 rd => Sys2Proof.Machine.execPadd zero rs2 rs1 rd s
  | .psub zero rs2 rs1 rd => Sys2Proof.Machine.execPsub zero rs2 rs1 rd s
  | .vadd zero rs2 rs1 rd => Sys2Proof.Machine.execVadd zero rs2 rs1 rd s
  | .dot zero rs2 rs1 rd => Sys2Proof.Machine.execDot zero rs2 rs1 rd s
  | .matvec zero rs2 rs1 rd => Sys2Proof.Machine.execMatvec zero rs2 rs1 rd s
  | .matvect zero rs2 rs1 rd => Sys2Proof.Machine.execMatvect zero rs2 rs1 rd s
  | .cbd addr zero eta rd => Sys2Proof.Machine.execCbd addr zero eta rd s
  | .cbdprf addr zero eta rd => Sys2Proof.Machine.execCbdprf addr zero eta rd s
  | .sntt addr zero col row rd => Sys2Proof.Machine.execSntt addr zero col row rd s
  | .snttb addr zero rd => Sys2Proof.Machine.execSnttb addr zero rd s
  | .enc addr zero dcode rs => Sys2Proof.Machine.execEnc addr zero dcode rs s
  | .dec addr zero dcode rd => Sys2Proof.Machine.execDec addr zero dcode rd s
  | .cmpr zero fn rs2 rs1 rd => Sys2Proof.Machine.execCmpr zero fn rs2 rs1 rd s
  | .dcmp zero fn rs2 rs1 rd => Sys2Proof.Machine.execDcmp zero fn rs2 rs1 rd s
  | .hash zero fn regs => Sys2Proof.Machine.execHash zero fn regs s
  | .cteq zero => Sys2Proof.Machine.execCteq zero s
  | .kpkeKeygen zero => Sys2Proof.Machine.execKpkeKeygen zero s
  | .kpkeEnc zero => Sys2Proof.Machine.execKpkeEnc zero s
  | .kpkeDec zero => Sys2Proof.Machine.execKpkeDec zero s
  | .mlkemKeygen zero => Sys2Proof.Machine.execMlkemKeygen zero s
  | .mlkemEncaps zero => Sys2Proof.Machine.execMlkemEncaps zero s
  | .mlkemDecaps zero => Sys2Proof.Machine.execMlkemDecaps zero s
  | .wipe zero => Sys2Proof.Machine.execWipe zero s

end Sys2Proof.Machine
end

