-- ==== Sys2Proof/Machine/Step.lean ====
section
/-! DEFINITION. One step of the machine: the core's completion step when a command is running and its host steps have passed
(R121, R850), else one step of the host (R860). -/

namespace Sys2Proof.Machine

/-- The core's step: the command word latched in CMD is decoded and run; an unassigned opcode is illegal (R120, R121, R311). -/
def runCommand (s : State) : Host.Outcome State Fault Refusal :=
  match Sys2Proof.decode s.cmd with
  | .ok i => exec i s
  | .error _ => completeIllegal s

/-- One step. -/
def step (s : State) : Host.Outcome State Fault Refusal :=
  if coreMoves s then runCommand s else .next (hostStep s)

/-- `s` with a command word accepted (as a CMD write accepts it, R121 step 1) and no further host step to wait for, so that
the next step runs it. There is no program store: a command word reaches CMD by a host write (log 7). -/
def State.withFetchWord (s : State) (nbits w : Nat) : State :=
  { acceptCommand (BitVec.ofNat 32 (w % 2 ^ nbits)) s with busyLeft := 0 }

end Sys2Proof.Machine
end

