-- ==== Sys2Proof/Safety.lean ====
section
/-! DEFINITION. What counts as a good state, a safe run and the end of a run, in the terms the statements use. -/

namespace Sys2Proof.Machine

/-- The invariant every step keeps: what holds of every state a run reaches. -/
structure State.Inv (s : State) : Prop where
  /-- the byte RAM is in its canonical form and lists only addresses below 8192 (R150) -/
  ramCanonical : s.bram.wf = true
  /-- RES holds a Coef, or 0 or 1 (R122) -/
  resIsCoef : s.res.toNat < 3329
  /-- CONSUMED is a multiple of 3: whole chunks, or the saturated 2³² − 1 (R503, R504) -/
  consumedIsChunks : s.consumed.toNat % 3 = 0
  /-- ERRCODE values 8 to 15 are never written (R701) -/
  errCodeBelow8 : s.status.errCode.toNat < 8
  /-- while a command runs, DONE, ERR and ERRCODE are clear (R121) -/
  busyIsFresh : s.status.busy = true → s.status.done = false ∧ s.status.err = false ∧ s.status.errCode = 0
  /-- ERR = 1 only beside the code of an error (R114) -/
  errHasCode : s.status.err = true → s.status.errCode ≠ 0

/-- CleanIdle(σ): idle and no flag set (R805). -/
def State.CleanIdle (s : State) : Prop :=
  s.status = { busy := false, done := false, err := false, errCode := 0, accerr := false, overrun := false, noncanon := false }

/-- A run recorded no error: ERR, ACCERR and OVERRUN are 0 (R805). -/
def State.noErrorRecorded (s : State) : Prop :=
  s.status.err = false ∧ s.status.accerr = false ∧ s.status.overrun = false

/-- The host has made its last transaction and BUSY = 0 (R862). -/
def State.programOver (s : State) : Bool := s.inputs.isEmpty && !s.status.busy

/-- The end state of the program that `s` launches, if `n` steps reach it: the first state after the last host transaction
where BUSY = 0 (R862). -/
def runToEnd : (n : Nat) → (s : State) → Option State
  | 0, s => if s.programOver then some s else none
  | n + 1, s =>
    if s.programOver then some s
    else match step s with
      | .next t => runToEnd n t
      | .fault _ => none
      | .refused _ => none

/-- `t` is the end state of the program that `s` launches; a program whose last command never completes has none (R862). -/
def EndState (s t : State) : Prop := ∃ n, runToEnd n s = some t

end Sys2Proof.Machine
end

