-- ==== Sys2Proof/Certificates/Slice0/Obligations.lean ====
section
/-! DEFINITION. The statements for the provers, and the spec's own functions in which they are written: the end states of a
completion (R121, R700), the bits of a byte string (R12), the transforms as the loops of R15 and R16, the samplers, the
packing and the K-PKE functions. None of them is used by the machine. -/

namespace Sys2Proof.Spec

open Sys2Proof.Machine

/-! ## End states of a completion -/

/-- A successful completion of `t`: BUSY 0, DONE 1, ERR 0, ERRCODE 0 (R114, R121). -/
def succeeded (t : State) : State :=
  { t with status := { t.status with busy := false, done := true, err := false, errCode := 0 } }

/-- A completion of `s` with CmdError(code): BUSY 0, DONE 1, ERR 1, ERRCODE code, nothing else (R700). -/
def failed (code : BitVec 4) (s : State) : State :=
  { s with status := { s.status with busy := false, done := true, err := true, errCode := code } }

/-- No completion step yet: every field of the core keeps its value (R505); the two fields changed are the model's own
(log 3). -/
def notYet (s : State) : State := { s with busyLeft := 1, chunks := s.chunks + 1 }

/-- `t` is the successful end of a command that leaves slot n holding `f n` and writes nothing else. -/
def slotsBecome (s : State) (f : Nat → Poly) (t : State) : Prop :=
  t = succeeded { s with slots := t.slots } ∧ ∀ n, n < 64 → t.slot n = f n

/-- `t` is the successful end of a command that leaves byte a of the byte RAM holding `f a` and writes nothing else. -/
def bytesBecome (s : State) (f : Nat → Byte) (t : State) : Prop :=
  t = succeeded { s with bram := t.bram } ∧ ∀ a, t.bram.read a = f a

/-- `t` is the successful end of a sequencer command: every slot cell 0 (R561), byte a of the byte RAM holding `f a`,
NONCANON set when `nc`, and nothing else written (R568). -/
def sequenced (s : State) (nc : Bool) (f : Nat → Byte) (t : State) : Prop :=
  t = succeeded { s with slots := t.slots, bram := t.bram, status := { s.status with noncanon := s.status.noncanon || nc } } ∧
    (∀ k i, k < 64 → i < 256 → (t.slot k).get i = 0) ∧ ∀ a, t.bram.read a = f a

/-- The address a lies in the region of `len` bytes at `start`. -/
abbrev within (start len a : Nat) : Prop := start ≤ a ∧ a < start + len

/-- The registers, flags and bookkeeping that a successful command leaves alone (R115, R116, R118-R120, R125). -/
def sameControl (s t : State) : Prop :=
  t.ie = s.ie ∧ t.cmd = s.cmd ∧ t.opa = s.opa ∧ t.opb = s.opb ∧ t.opx = s.opx ∧ t.hsrc = s.hsrc ∧ t.hlen = s.hlen ∧
    t.hdst = s.hdst ∧ t.holen = s.holen ∧ t.status.accerr = s.status.accerr ∧ t.status.overrun = s.status.overrun ∧
    t.inputs = s.inputs ∧ t.rdata = s.rdata ∧ t.busyLeft = s.busyLeft ∧ t.chunks = s.chunks ∧ t.accepts = s.accepts

/-! ## Command words -/

/-- The opcode of a command's word (R300). -/
def opcodeOf (i : Instr) : BitVec 8 := (encode i).extractLsb' 0 8

/-- A reserved width code or hash selector (R307, R309, R312): dcode > 5 in ENC and DEC, fn > 4 in CMPR and DCMP, fn > 3 in
HASH. -/
def reservedCode (w : Word) : Prop :=
  (w.toNat % 256 ∈ [0x40, 0x41] ∧ 5 < w.toNat / 2 ^ 14 % 8) ∨ (w.toNat % 256 ∈ [0x42, 0x43] ∧ 4 < w.toNat / 2 ^ 26 % 8) ∨
    (w.toNat % 256 = 0x50 ∧ 3 < w.toNat / 2 ^ 26 % 8)

/-- The closed slot ranges [a, a+n-1] and [b, b+m-1] share at least one slot (R457). -/
abbrev meets (a n b m : Nat) : Prop := (Finset.Icc a (a + n - 1) ∩ Finset.Icc b (b + m - 1)).Nonempty

/-! ## Bits, twiddles and transforms -/

/-- bit(B, k) (R12). -/
def bit (B : List Byte) (k : Nat) : Nat := (B.getD (k / 8) 0).toNat / 2 ^ (k % 8) % 2

/-- The raw value i of ByteDecode_d(B) (R19). -/
def rawValue (d : Nat) (B : List Byte) (i : Nat) : Nat := ∑ k ∈ Finset.range d, bit B (i * d + k) * 2 ^ k

/-- bitrev7(k) = Σ_{b=0..6} k[b]·2^(6−b) (R13). -/
def reversed (k : Nat) : Nat := ∑ b ∈ Finset.range 7, k / 2 ^ b % 2 * 2 ^ (6 - b)

/-- ZETA[k] = 17^bitrev7(k) mod q (R140). -/
def zetaPower (k : Nat) : Coef := Fin.ofNat 3329 (17 ^ reversed k)

/-- GAMMA[k] = 17^(2·bitrev7(k) + 1) mod q (R140). -/
def gammaPower (k : Nat) : Coef := Fin.ofNat 3329 (17 ^ (2 * reversed k + 1))

/-- p[i] <- v. -/
def put (p : Nat → Coef) (i : Nat) (v : Coef) : Nat → Coef := fun n => if n = i then v else p n

/-- One butterfly of R15 at j: t <- z·p[j+len]; p[j+len] <- p[j] − t; p[j] <- p[j] + t. -/
def nttButterfly (z : Coef) (len : Nat) (p : Nat → Coef) (j : Nat) : Nat → Coef :=
  let t := z * p (j + len)
  let p1 := put p (j + len) (p j - t)
  put p1 j (p1 j + t)

/-- One butterfly of R16 at j: t <- p[j]; p[j] <- t + p[j+len]; p[j+len] <- z·(p[j+len] − t). -/
def inttButterfly (z : Coef) (len : Nat) (p : Nat → Coef) (j : Nat) : Nat → Coef :=
  let t := p j
  let p1 := put p j (t + p (j + len))
  put p1 (j + len) (z * (p1 (j + len) - t))

/-- The `start` loop of R15 for one `len`, with the running twiddle index k: (p, k) before to (p, k) after. -/
def nttPass (st : (Nat → Coef) × Nat) (len : Nat) : (Nat → Coef) × Nat :=
  (List.range (128 / len)).foldl (fun st b =>
    ((List.range len).foldl (fun p j => nttButterfly (zetaPower st.2) len p (2 * len * b + j)) st.1, st.2 + 1)) st

/-- The `start` loop of R16 for one `len`, k running down. -/
def inttPass (st : (Nat → Coef) × Nat) (len : Nat) : (Nat → Coef) × Nat :=
  (List.range (128 / len)).foldl (fun st b =>
    ((List.range len).foldl (fun p j => inttButterfly (zetaPower st.2) len p (2 * len * b + j)) st.1, st.2 - 1)) st

/-- NTT(f) as the loops of R15: k from 1, len = 128, 64, …, 2. -/
def nttLoops (f : Poly) : Poly := Poly.ofFn ([128, 64, 32, 16, 8, 4, 2].foldl nttPass (f.get, 1)).1

/-- INTT(f) as the loops of R16: k from 127, len = 2, 4, …, 128, then every coefficient times 3303. -/
def inttLoops (f : Poly) : Poly :=
  Poly.ofFn fun i => ([2, 4, 8, 16, 32, 64, 128].foldl inttPass (f.get, 127)).1 i * 3303

/-! ## Polynomials in ℤ_q -/

/-- Coefficient-wise sum. -/
def plus (a b : Poly) : Poly := Poly.ofFn fun n => a.get n + b.get n

/-- Coefficient-wise difference. -/
def minus (a b : Poly) : Poly := Poly.ofFn fun n => a.get n - b.get n

/-- BaseMul(a, b) (R17), in ℤ_q. -/
def baseMulZq (a b : Poly) : Poly :=
  Poly.ofFn fun n =>
    if n % 2 = 0 then a.get n * b.get n + gammaPower (n / 2) * a.get (n + 1) * b.get (n + 1)
    else a.get (n - 1) * b.get n + a.get n * b.get (n - 1)

/-- A sum of four Polys. -/
def sum4 (f : Fin 4 → Poly) : Poly := plus (plus (plus (f 0) (f 1)) (f 2)) (f 3)

/-- Coefficient n of the product of two Polys in ℤ_q[X]/(X²⁵⁶ + 1): a[i]·b[j] is added at i + j when i + j < 256 and
subtracted at i + j − 256 otherwise (95_test_vectors.md section 2.2). -/
def ringProduct (a b : Poly) (n : Nat) : Coef :=
  ∑ i ∈ Finset.range 256, if i ≤ n then a.get i * b.get (n - i) else -(a.get i * b.get (256 + n - i))

/-! ## Samplers -/

/-- SamplePolyCBD(B, η) (R22): (x − y) mod q with x, y ≤ η. -/
def cbdPoly (B : List Byte) (eta : Nat) : Poly :=
  Poly.ofFn fun i => Fin.ofNat 3329 ((∑ j ∈ Finset.range eta, bit B (2 * eta * i + j)) + 3329 -
    ∑ j ∈ Finset.range eta, bit B (2 * eta * i + eta + j))

/-- The values below q among the candidates of the first n chunks of a stream, in order (R23). -/
def accepted (S : Nat → Byte) (n : Nat) : List Nat :=
  ((List.range n).flatMap fun c =>
    [(S (3 * c)).toNat + 256 * ((S (3 * c + 1)).toNat % 16), (S (3 * c + 1)).toNat / 16 + 16 * (S (3 * c + 2)).toNat]).filter
      fun d => decide (d < 3329)

/-- The first n chunks are the shortest prefix of the stream that yields 256 values below q (R23). -/
def shortest (S : Nat → Byte) (n : Nat) : Prop :=
  256 ≤ (accepted S n).length ∧ ∀ m, m < n → (accepted S m).length < 256

/-- The Poly of the first 256 values accepted from the first n chunks. -/
def sampled (S : Nat → Byte) (n : Nat) : Poly := Poly.ofFn fun k => Fin.ofNat 3329 ((accepted S n).getD k 0)

/-- The stream XOF_A(ρ, i, j) = SHAKE128(ρ ‖ byte(j) ‖ byte(i)) (R21). -/
def stream (rho : List Byte) (i j : Nat) : Nat → Byte := Config.shake128 (rho ++ [BitVec.ofNat 8 j, BitVec.ofNat 8 i])

/-- Each of the 16 streams of GenA(ρ) yields 256 values in its first n chunks (R560). -/
def matrixReady (n : Nat) (rho : List Byte) : Prop :=
  ∀ i j, i < 4 → j < 4 → 256 ≤ (accepted (stream rho i j) n).length

/-- GenA(ρ) (R560). -/
def matrix (n : Nat) (rho : List Byte) : Fin 4 → Fin 4 → Poly := fun i j => sampled (stream rho i j) n

/-- PRF(seed, N, η) = SHAKE256(seed ‖ byte(N), 64·η) (R21). -/
def prfBytes (seed : List Byte) (n eta : Nat) : List Byte :=
  (List.range (64 * eta)).map (Config.shake256Stream (seed ++ [BitVec.ofNat 8 n]))

/-- SamplePolyCBD(PRF(seed, N, 2), 2) (R562, R564). -/
def noise (seed : List Byte) (n : Nat) : Poly := cbdPoly (prfBytes seed n 2) 2

/-! ## Packing and compression -/

/-- ByteEncode_d(F): bit i·d + k of the string is bit k of F[i] (R19). -/
def pack (d : Nat) (F : Poly) : List Byte :=
  (List.range (32 * d)).map fun j =>
    BitVec.ofNat 8 (∑ b ∈ Finset.range 8, (F.get ((8 * j + b) / d)).val / 2 ^ ((8 * j + b) % d) % 2 * 2 ^ b)

/-- The four encodings of a Vec, concatenated. -/
def packVec (d : Nat) (v : Fin 4 → Poly) : List Byte := pack d (v 0) ++ pack d (v 1) ++ pack d (v 2) ++ pack d (v 3)

/-- ByteDecode_d(B), each value mod q (R19, R541). -/
def unpack (d : Nat) (B : List Byte) : Poly := Poly.ofFn fun i => Fin.ofNat 3329 (rawValue d B i)

/-- Poly number k of a string of encoded Polys of n bytes each. -/
def piece (B : List Byte) (n k : Nat) : List Byte := (B.drop (n * k)).take n

/-- Some raw 12-bit value among the first n of B is ≥ q (R541, R560). -/
def nonCanonical (B : List Byte) (n : Nat) : Bool := decide (∃ i ∈ Finset.range n, 3329 ≤ rawValue 12 B i)

/-- Compress_d coefficient by coefficient (R18). -/
def shrink (d : Nat) (p : Poly) : Poly :=
  Poly.ofFn fun i => Fin.ofNat 3329 ((2 ^ (d + 1) * (p.get i).val + 3329) / 6658 % 2 ^ d)

/-- Decompress_d coefficient by coefficient (R18). -/
def grow (d : Nat) (p : Poly) : Poly :=
  Poly.ofFn fun i => Fin.ofNat 3329 ((3329 * (p.get i).val + 2 ^ (d - 1)) / 2 ^ d)

/-! ## K-PKE (47_kpke.md) -/

/-- G(x) = SHA3_512(x) (R21). -/
def hashG64 (x : List Byte) : List Byte := (Config.sha3_512 x).toList

/-- H(x) = SHA3_256(x) (R21). -/
def hashH32 (x : List Byte) : List Byte := (Config.sha3_256 x).toList

/-- J(x) = SHAKE256(x, 32) (R21). -/
def hashJ32 (x : List Byte) : List Byte := (List.range 32).map (Config.shake256Stream x)

/-- ρ of K-PKE.KeyGen: the first half of G(d ‖ byte(4)) (R562 step 1). -/
def keyGenRho (d : List Byte) : List Byte := (hashG64 (d ++ [4])).take 32

/-- K-PKE.KeyGen with the matrix Â given (R562): (ek_pke, dk_pke). -/
def keyGen (A : Fin 4 → Fin 4 → Poly) (d : List Byte) : List Byte × List Byte :=
  let sigma := (hashG64 (d ++ [4])).drop 32
  let s : Fin 4 → Poly := fun i => nttLoops (noise sigma i.val)
  let e : Fin 4 → Poly := fun i => nttLoops (noise sigma (4 + i.val))
  let t : Fin 4 → Poly := fun i => plus (sum4 fun j => baseMulZq (A i j) (s j)) (e i)
  (packVec 12 t ++ keyGenRho d, packVec 12 s)

/-- K-PKE.Encrypt with the matrix Â given (R564): the ciphertext. -/
def encrypt (A : Fin 4 → Fin 4 → Poly) (ek m r : List Byte) : List Byte :=
  let t : Fin 4 → Poly := fun k => unpack 12 (piece ek 384 k.val)
  let y : Fin 4 → Poly := fun i => nttLoops (noise r i.val)
  let u : Fin 4 → Poly := fun i => plus (inttLoops (sum4 fun j => baseMulZq (A j i) (y j))) (noise r (4 + i.val))
  let v := plus (plus (inttLoops (sum4 fun j => baseMulZq (t j) (y j))) (noise r 8)) (grow 1 (unpack 1 m))
  packVec 11 (fun i => shrink 11 (u i)) ++ pack 5 (shrink 5 v)

/-- K-PKE.Decrypt (R566). -/
def decrypt (dk c : List Byte) : List Byte :=
  let u : Fin 4 → Poly := fun i => grow 11 (unpack 11 (piece c 352 i.val))
  let v := grow 5 (unpack 5 (c.drop 1408))
  let s : Fin 4 → Poly := fun k => unpack 12 (piece dk 384 k.val)
  pack 1 (shrink 1 (minus v (inttLoops (sum4 fun j => baseMulZq (s j) (nttLoops (u j))))))

/-! ## Progress -/

/-- A host operation that does not reset the core: neither the reset line nor a CTRL write with SRST = 1 (R800, R802). -/
def quiet : HostOp → Prop
  | .read _ => True
  | .write addr data wstrb => ¬(addr = 0x004 ∧ wstrb = 0xF ∧ data.getLsbD 1 = true)
  | .reset => False

/-- The running command's result is defined once c chunks of each of its streams have been examined: its word or address is
refused, or each stream it samples yields 256 values (R505, R851). A command that samples no SHAKE128 stream is always
defined. -/
def definedWithin (c : Nat) (s : State) : Instr → Prop
  | .sntt addr zero col row _ =>
    zero ≠ 0 ∨ 8192 < addr.toNat + 32 ∨
      256 ≤ (accepted (stream (s.bram.readBytes addr.toNat 32) row.toNat col.toNat) c).length
  | .kpkeKeygen zero => zero ≠ 0 ∨ matrixReady c (keyGenRho (s.bram.readBytes 0x1EC0 32))
  | .mlkemKeygen zero => zero ≠ 0 ∨ matrixReady c (keyGenRho (s.bram.readBytes 0x1EC0 32))
  | .kpkeEnc zero => zero ≠ 0 ∨ matrixReady c (s.bram.readBytes 0x1260 32)
  | .mlkemEncaps zero => zero ≠ 0 ∨ matrixReady c (s.bram.readBytes 0x1260 32)
  | .mlkemDecaps zero => zero ≠ 0 ∨ matrixReady c (s.bram.readBytes 0x0C00 32)
  | .nop _ => True
  | .madd _ => True
  | .msub _ => True
  | .mmul _ => True
  | .mred _ => True
  | .ntt _ _ => True
  | .intt _ _ => True
  | .vntt _ _ => True
  | .vintt _ _ => True
  | .basemul _ _ _ _ => True
  | .padd _ _ _ _ => True
  | .psub _ _ _ _ => True
  | .vadd _ _ _ _ => True
  | .dot _ _ _ _ => True
  | .matvec _ _ _ _ => True
  | .matvect _ _ _ _ => True
  | .cbd _ _ _ _ => True
  | .cbdprf _ _ _ _ => True
  | .snttb _ _ _ => True
  | .enc _ _ _ _ => True
  | .dec _ _ _ _ => True
  | .cmpr _ _ _ _ _ => True
  | .dcmp _ _ _ _ _ => True
  | .hash _ _ _ => True
  | .cteq _ => True
  | .kpkeDec _ => True
  | .wipe _ => True

end Sys2Proof.Spec

open Sys2Proof Sys2Proof.Machine Sys2Proof.Spec

/-- R300-R303, R310: no bit of a command word is dropped; must-be-zero fields are fields too. -/
def Obligations.DecodeInvertsEncode : Prop :=
  ∀ i : Instr, decode (encode i) = .ok i

/-- R310, R312: "no encoding has two meanings", and every bit of a word with an assigned opcode is kept. -/
def Obligations.EncodeInvertsDecode : Prop :=
  ∀ (w : Word) (i : Instr), decode w = .ok i → encode i = w

/-- R310 (the masks), R306, R307, R309, R312. -/
def Obligations.IllFormedExactlyUnderMask : Prop :=
  ∀ (w : Word) (r : OpcodeRow), opcodeRow? w = some r →
    ∃ i, decode w = .ok i ∧ (i.wf = false ↔ (w &&& r.mustBeZero ≠ 0 ∨ reservedCode w))

/-- R310 (every row), with the formats R301-R303 and the words of R314, R501, R502. A sanity statement. -/
def Obligations.WordsDecodeAsSpecified : Prop :=
  decode 0x00000000 = .ok (.nop 0) ∧
  decode 0x00000001 = .ok (.madd 0) ∧
  decode 0x00000002 = .ok (.msub 0) ∧
  decode 0x00000003 = .ok (.mmul 0) ∧
  decode 0x00000004 = .ok (.mred 0) ∧
  decode 0x00000510 = .ok (.ntt 0 5) ∧
  decode 0x00003F11 = .ok (.intt 0 63) ∧
  decode 0x00003C12 = .ok (.vntt 0 60) ∧
  decode 0x00000113 = .ok (.vintt 0 1) ∧
  decode 0x00204314 = .ok (.basemul 0 2 1 3) ∧
  decode 0x00204320 = .ok (.padd 0 2 1 3) ∧
  decode 0x00204321 = .ok (.psub 0 2 1 3) ∧
  decode 0x034E3C22 = .ok (.vadd 0 52 56 60) ∧
  decode 0x00423F23 = .ok (.dot 0 4 8 63) ∧
  decode 0x02042824 = .ok (.matvec 0 32 16 40) ∧
  decode 0x02042825 = .ok (.matvect 0 32 16 40) ∧
  decode 0x00004030 = .ok (.cbd 0 0 1 0) ∧
  decode 0xFB000431 = .ok (.cbdprf 0x1F60 0 0 4) ∧
  decode 0xFA024032 = .ok (.sntt 0x1F40 0 2 1 0) ∧
  decode 0x93001032 = .ok (.sntt 0x1260 0 0 0 16) ∧
  decode 0xF8000733 = .ok (.snttb 0x1F00 0 7) ∧
  decode 0x30014040 = .ok (.enc 0x0600 0 5 0) ∧
  decode 0x30014141 = .ok (.dec 0x0600 0 5 1) ∧
  decode 0x10004242 = .ok (.cmpr 0 4 0 1 2) ∧
  decode 0x10004243 = .ok (.dcmp 0 4 0 1 2) ∧
  decode 0x00000050 = .ok (.hash 0 0 0) ∧
  decode 0x0C000050 = .ok (.hash 0 3 0) ∧
  decode 0x00000051 = .ok (.cteq 0) ∧
  decode 0x00000060 = .ok (.kpkeKeygen 0) ∧
  decode 0x00000061 = .ok (.kpkeEnc 0) ∧
  decode 0x00000062 = .ok (.kpkeDec 0) ∧
  decode 0x00000068 = .ok (.mlkemKeygen 0) ∧
  decode 0x00000069 = .ok (.mlkemEncaps 0) ∧
  decode 0x0000006A = .ok (.mlkemDecaps 0) ∧
  decode 0x0000007F = .ok (.wipe 0) ∧
  decode 0x00000100 = .ok (.nop 1)

/-- R311. -/
def Obligations.UnassignedOpcodeIsIllegal : Prop :=
  ((List.range 256).filter fun op => (opcodeRow? (BitVec.ofNat 32 op)).isNone).length = 223 ∧
  ∀ s : State, s.status.busy = true → s.busyLeft = 0 → opcodeRow? s.cmd = none → step s = .next (failed 1 s)

/-- R312: PARAM comes before every other check of the command (R703). -/
def Obligations.IllFormedWordIsParam : Prop :=
  ∀ (s : State) (r : OpcodeRow), s.status.busy = true → s.busyLeft = 0 → opcodeRow? s.cmd = some r →
    (s.cmd &&& r.mustBeZero ≠ 0 ∨ reservedCode s.cmd) → step s = .next (failed 2 s)

/-- R120, R121, R860. That the pending host operations stand in a queue, and that the core moves exactly when `busyLeft` is 0, are the
model's choices, and so is the field that keeps the last read data (logs 2 and 5). -/
def Obligations.StepRunsLatchedCommand : Prop :=
  (∀ (s : State) (i : Instr), s.status.busy = true → s.busyLeft = 0 → decode s.cmd = .ok i → step s = exec i s) ∧
  (∀ s : State, (s.status.busy = false ∨ 0 < s.busyLeft) →
    step s = .next (match s.inputs with
      | [] => { s with busyLeft := s.busyLeft - 1 }
      | op :: rest => applyHostOp op { s with inputs := rest, busyLeft := s.busyLeft - 1 })) ∧
  (∀ (addr : HostAddr) (s : State), applyHostOp (.read addr) s = { (hostRead addr s).2 with rdata := (hostRead addr s).1 }) ∧
  ∀ (addr : HostAddr) (data : Word) (wstrb : BitVec 4) (s : State),
    applyHostOp (.write addr data wstrb) s = hostWrite addr data wstrb s

/-- State.Inv of Safety.lean: R150, R122, R124 and R504, R701, R121, R114. -/
def Obligations.StepKeepsInvariant : Prop :=
  ∀ s t : State, s.Inv → step s = .next t → t.Inv

/-- R801, every row of its table. -/
def Obligations.ResetStateAsSpecified : Prop :=
  (hostRead 0x000 State.reset).1 = 0x4D4C4B34 ∧ (hostRead 0x004 State.reset).1 = 0 ∧ State.reset.ie = false ∧
  State.reset.status.busy = false ∧ State.reset.status.done = false ∧ State.reset.status.err = false ∧
  State.reset.status.errCode = 0 ∧
  State.reset.status.accerr = false ∧ State.reset.status.overrun = false ∧ State.reset.status.noncanon = false ∧
  State.reset.cmd = 0 ∧ State.reset.opa = 0 ∧ State.reset.opb = 0 ∧ State.reset.opx = 0 ∧
  State.reset.res = 0 ∧ State.reset.nonce = 0 ∧ State.reset.consumed = 0 ∧
  State.reset.hsrc = 0 ∧ State.reset.hlen = 0 ∧ State.reset.hdst = 0 ∧ State.reset.holen = 0 ∧
  (∀ k i, k < 64 → i < 256 → (State.reset.slot k).get i = 0) ∧ (∀ a, State.reset.bram.read a = 0) ∧
  State.reset.irq = false

/-- R805: "The reset state satisfies it." -/
def Obligations.ResetMeetsInvariant : Prop :=
  State.reset.Inv ∧ State.reset.CleanIdle

/-- R620. -/
def Obligations.NopChangesOnlyLifecycle : Prop :=
  ∀ (zero : BitVec 24) (s : State), exec (.nop zero) s = .next (if zero ≠ 0 then failed 2 s else succeeded s)

/-- R621. -/
def Obligations.WipeZeroesBothRams : Prop :=
  ∀ (zero : BitVec 24) (s : State), ∃ t, exec (.wipe zero) s = .next t ∧
    if zero ≠ 0 then t = failed 2 s
    else t = succeeded { s with slots := t.slots, bram := t.bram } ∧
      (∀ k i, k < 64 → i < 256 → (t.slot k).get i = 0) ∧ ∀ a, t.bram.read a = 0

/-- R405, through the datapath of R400-R403. -/
def Obligations.MaddAddsModQ : Prop :=
  ∀ (zero : BitVec 24) (s : State), exec (.madd zero) s = .next (
    if zero ≠ 0 then failed 2 s
    else if s.opa.toNat < 3329 ∧ s.opb.toNat < 3329 then
      succeeded { s with res := BitVec.ofNat 16 ((s.opa.toNat + s.opb.toNat) % 3329) }
    else failed 6 s)

/-- R406, through the datapath of R400-R403. -/
def Obligations.MsubSubtractsModQ : Prop :=
  ∀ (zero : BitVec 24) (s : State), exec (.msub zero) s = .next (
    if zero ≠ 0 then failed 2 s
    else if s.opa.toNat < 3329 ∧ s.opb.toNat < 3329 then
      succeeded { s with res := BitVec.ofInt 16 (((s.opa.toNat : Int) - (s.opb.toNat : Int)) % 3329) }
    else failed 6 s)

/-- R407, through the datapath of R400-R403. -/
def Obligations.MmulMultipliesModQ : Prop :=
  ∀ (zero : BitVec 24) (s : State), exec (.mmul zero) s = .next (
    if zero ≠ 0 then failed 2 s
    else if s.opa.toNat < 3329 ∧ s.opb.toNat < 3329 then
      succeeded { s with res := BitVec.ofNat 16 (s.opa.toNat * s.opb.toNat % 3329) }
    else failed 6 s)

/-- R408, through the Barrett reduction of R401. -/
def Obligations.MredReducesModQ : Prop :=
  ∀ (zero : BitVec 24) (s : State), exec (.mred zero) s = .next (
    if zero ≠ 0 then failed 2 s
    else if s.opx.toInt < -(2 ^ 26) ∨ 2 ^ 26 < s.opx.toInt then failed 6 s
    else succeeded { s with res := BitVec.ofInt 16 (s.opx.toInt % 3329) })

/-- R420 with the loops of R15 written out (nttLoops), which read ZETA[1..127] in order. -/
def Obligations.NttRunsTheLoops : Prop :=
  ∀ (zero : BitVec 18) (rd : Slot) (s : State), ∃ t, exec (.ntt zero rd) s = .next t ∧
    if zero ≠ 0 then t = failed 2 s
    else slotsBecome s (fun n => if n = rd.toNat then nttLoops (s.slot n) else s.slot n) t

/-- R421 with the loops of R16 written out (inttLoops). -/
def Obligations.InttRunsTheLoops : Prop :=
  ∀ (zero : BitVec 18) (rd : Slot) (s : State), ∃ t, exec (.intt zero rd) s = .next t ∧
    if zero ≠ 0 then t = failed 2 s
    else slotsBecome s (fun n => if n = rd.toNat then inttLoops (s.slot n) else s.slot n) t

/-- R422, R423; rd = 60 is legal and covers slots 60..63. -/
def Obligations.VnttVinttTransformFourSlots : Prop :=
  ∀ (zero : BitVec 18) (rd : Slot) (s : State),
    (∃ t, exec (.vntt zero rd) s = .next t ∧
      if zero ≠ 0 then t = failed 2 s
      else if 60 < rd.toNat then t = failed 3 s
      else slotsBecome s (fun n => if within rd.toNat 4 n then nttLoops (s.slot n) else s.slot n) t) ∧
    ∃ t, exec (.vintt zero rd) s = .next t ∧
      if zero ≠ 0 then t = failed 2 s
      else if 60 < rd.toNat then t = failed 3 s
      else slotsBecome s (fun n => if within rd.toNat 4 n then inttLoops (s.slot n) else s.slot n) t

/-- R424 and R17, in ℤ_q. -/
def Obligations.BasemulMultipliesPairs : Prop :=
  ∀ (zero : BitVec 6) (rs2 rs1 rd : Slot) (s : State), ∃ t, exec (.basemul zero rs2 rs1 rd) s = .next t ∧
    if zero ≠ 0 then t = failed 2 s
    else slotsBecome s (fun n => if n = rd.toNat then baseMulZq (s.slot rs1.toNat) (s.slot rs2.toNat) else s.slot n) t

/-- R451, R452. -/
def Obligations.PaddPsubPerCoefficient : Prop :=
  ∀ (zero : BitVec 6) (rs2 rs1 rd : Slot) (s : State),
    (∃ t, exec (.padd zero rs2 rs1 rd) s = .next t ∧
      if zero ≠ 0 then t = failed 2 s
      else slotsBecome s (fun n => if n = rd.toNat then plus (s.slot rs1.toNat) (s.slot rs2.toNat) else s.slot n) t) ∧
    ∃ t, exec (.psub zero rs2 rs1 rd) s = .next t ∧
      if zero ≠ 0 then t = failed 2 s
      else slotsBecome s (fun n => if n = rd.toNat then minus (s.slot rs1.toNat) (s.slot rs2.toNat) else s.slot n) t

/-- R453, with overlap_vadd of R457. -/
def Obligations.VaddAddsVectors : Prop :=
  ∀ (zero : BitVec 6) (rs2 rs1 rd : Slot) (s : State), ∃ t, exec (.vadd zero rs2 rs1 rd) s = .next t ∧
    if zero ≠ 0 then t = failed 2 s
    else if 60 < rd.toNat ∨ 60 < rs1.toNat ∨ 60 < rs2.toNat then t = failed 3 s
    else if (meets rd.toNat 4 rs1.toNat 4 ∧ rd ≠ rs1) ∨ (meets rd.toNat 4 rs2.toNat 4 ∧ rd ≠ rs2) then t = failed 5 s
    else slotsBecome s (fun n =>
      if within rd.toNat 4 n then plus (s.slot (rs1.toNat + (n - rd.toNat))) (s.slot (rs2.toNat + (n - rd.toNat)))
      else s.slot n) t

/-- R454. -/
def Obligations.DotSumsFourProducts : Prop :=
  ∀ (zero : BitVec 6) (rs2 rs1 rd : Slot) (s : State), ∃ t, exec (.dot zero rs2 rs1 rd) s = .next t ∧
    if zero ≠ 0 then t = failed 2 s
    else if 60 < rs1.toNat ∨ 60 < rs2.toNat then t = failed 3 s
    else if within rs1.toNat 4 rd.toNat ∨ within rs2.toNat 4 rd.toNat then t = failed 5 s
    else slotsBecome s (fun n =>
      if n = rd.toNat then sum4 fun k => baseMulZq (s.slot (rs1.toNat + k.val)) (s.slot (rs2.toNat + k.val))
      else s.slot n) t

/-- R455, R456: A[i][j] is slot rs1 + 4·i + j. -/
def Obligations.MatvecMatvectMultiply : Prop :=
  ∀ (zero : BitVec 6) (rs2 rs1 rd : Slot) (s : State),
    (∃ t, exec (.matvec zero rs2 rs1 rd) s = .next t ∧
      if zero ≠ 0 then t = failed 2 s
      else if 60 < rd.toNat ∨ 48 < rs1.toNat ∨ 60 < rs2.toNat then t = failed 3 s
      else if meets rd.toNat 4 rs1.toNat 16 ∨ meets rd.toNat 4 rs2.toNat 4 then t = failed 5 s
      else slotsBecome s (fun n =>
        if within rd.toNat 4 n then
          sum4 fun j => baseMulZq (s.slot (rs1.toNat + 4 * (n - rd.toNat) + j.val)) (s.slot (rs2.toNat + j.val))
        else s.slot n) t) ∧
    ∃ t, exec (.matvect zero rs2 rs1 rd) s = .next t ∧
      if zero ≠ 0 then t = failed 2 s
      else if 60 < rd.toNat ∨ 48 < rs1.toNat ∨ 60 < rs2.toNat then t = failed 3 s
      else if meets rd.toNat 4 rs1.toNat 16 ∨ meets rd.toNat 4 rs2.toNat 4 then t = failed 5 s
      else slotsBecome s (fun n =>
        if within rd.toNat 4 n then
          sum4 fun j => baseMulZq (s.slot (rs1.toNat + 4 * j.val + (n - rd.toNat))) (s.slot (rs2.toNat + j.val))
        else s.slot n) t

/-- R500, R22; η = 2 or 3 by the eta bit (R308). -/
def Obligations.CbdSamplesBytes : Prop :=
  ∀ (addr : ByteAddr) (zero : BitVec 4) (eta : BitVec 1) (rd : Slot) (s : State),
    ∃ t, exec (.cbd addr zero eta rd) s = .next t ∧
      if zero ≠ 0 then t = failed 2 s
      else if 8192 < addr.toNat + 64 * (2 + eta.toNat) then t = failed 4 s
      else slotsBecome s (fun n =>
        if n = rd.toNat then cbdPoly (s.bram.readBytes addr.toNat (64 * (2 + eta.toNat))) (2 + eta.toNat)
        else s.slot n) t

/-- R501, whatever SHAKE256 is (a free constant). -/
def Obligations.CbdprfSamplesAndCountsNonce : Prop :=
  ∀ (addr : ByteAddr) (zero : BitVec 4) (eta : BitVec 1) (rd : Slot) (s : State),
    ∃ t, exec (.cbdprf addr zero eta rd) s = .next t ∧
      if zero ≠ 0 then t = failed 2 s
      else if 8192 < addr.toNat + 32 then t = failed 4 s
      else t = succeeded { s with slots := t.slots, nonce := BitVec.ofNat 8 ((s.nonce.toNat + 1) % 256) } ∧
        ∀ n, n < 64 → t.slot n =
          if n = rd.toNat then
            cbdPoly (prfBytes (s.bram.readBytes addr.toNat 32) s.nonce.toNat (2 + eta.toNat)) (2 + eta.toNat)
          else s.slot n

/-- R502, R23, R504, R505. How many chunks have been examined when the core moves is the model's own field `chunks` (log 3); the
values written do not depend on it. -/
def Obligations.SnttSamplesXofStream : Prop :=
  ∀ (addr : ByteAddr) (zero : BitVec 1) (col row : BitVec 2) (rd : Slot) (s : State),
    ∃ t, exec (.sntt addr zero col row rd) s = .next t ∧
      let S := stream (s.bram.readBytes addr.toNat 32) row.toNat col.toNat
      if zero ≠ 0 then t = failed 2 s
      else if 8192 < addr.toNat + 32 then t = failed 4 s
      else if 256 ≤ (accepted S s.chunks).length then
        ∃ k, k ≤ s.chunks ∧ shortest S k ∧
          t = succeeded { s with slots := t.slots, consumed := BitVec.ofNat 32 (min (3 * k) (2 ^ 32 - 1)) } ∧
          ∀ n, n < 64 → t.slot n = if n = rd.toNat then sampled S k else s.slot n
      else t = notYet s

/-- R503 and R23. -/
def Obligations.SnttbSamplesByteRam : Prop :=
  ∀ (addr : ByteAddr) (zero : BitVec 5) (rd : Slot) (s : State),
    ∃ t, exec (.snttb addr zero rd) s = .next t ∧
      let S := fun k => s.bram.read (addr.toNat + k)
      let n := (8192 - addr.toNat) / 3
      if zero ≠ 0 then t = failed 2 s
      else if 256 ≤ (accepted S n).length then
        ∃ k, k ≤ n ∧ shortest S k ∧ t = succeeded { s with slots := t.slots, consumed := BitVec.ofNat 32 (3 * k) } ∧
          ∀ m, m < 64 → t.slot m = if m = rd.toNat then sampled S k else s.slot m
      else t = failed 7 { s with consumed := BitVec.ofNat 32 (3 * n) }

/-- R540 and the ByteEncode half of R19, for a byte RAM in its canonical form. -/
def Obligations.EncPacksCoefficients : Prop :=
  ∀ (addr : ByteAddr) (zero : BitVec 2) (dcode : BitVec 3) (rs : Slot) (s : State), s.bram.wf = true →
    ∃ t, exec (.enc addr zero dcode rs) s = .next t ∧
      let d := [1, 4, 5, 10, 11, 12].getD dcode.toNat 0
      if zero ≠ 0 ∨ 5 < dcode.toNat then t = failed 2 s
      else if 8192 < addr.toNat + 32 * d then t = failed 4 s
      else if d < 12 ∧ ∃ i ∈ Finset.range 256, 2 ^ d ≤ ((s.slot rs.toNat).get i).val then t = failed 6 s
      else t = succeeded { s with bram := t.bram } ∧
        (∀ i k, i < 256 → k < d →
          (t.bram.read (addr.toNat + (i * d + k) / 8)).toNat / 2 ^ ((i * d + k) % 8) % 2 =
            ((s.slot rs.toNat).get i).val / 2 ^ k % 2) ∧
        ∀ a, ¬within addr.toNat (32 * d) a → t.bram.read a = s.bram.read a

/-- R541 and the ByteDecode half of R19. -/
def Obligations.DecUnpacksCoefficients : Prop :=
  ∀ (addr : ByteAddr) (zero : BitVec 2) (dcode : BitVec 3) (rd : Slot) (s : State),
    ∃ t, exec (.dec addr zero dcode rd) s = .next t ∧
      let d := [1, 4, 5, 10, 11, 12].getD dcode.toNat 0
      let B := s.bram.readBytes addr.toNat (32 * d)
      if zero ≠ 0 ∨ 5 < dcode.toNat then t = failed 2 s
      else if 8192 < addr.toNat + 32 * d then t = failed 4 s
      else t = succeeded { s with
          slots := t.slots
          status := { s.status with noncanon := s.status.noncanon || (decide (d = 12) && nonCanonical B 256) } } ∧
        ∀ n, n < 64 → t.slot n = if n = rd.toNat then unpack d B else s.slot n

/-- R542 with the formula of R18. -/
def Obligations.CmprCompressesCoefficients : Prop :=
  ∀ (zero fn : BitVec 3) (rs2 rs1 rd : Slot) (s : State), ∃ t, exec (.cmpr zero fn rs2 rs1 rd) s = .next t ∧
    if zero ≠ 0 ∨ rs2 ≠ 0 ∨ 4 < fn.toNat then t = failed 2 s
    else slotsBecome s (fun n =>
      if n = rd.toNat then shrink ([1, 4, 5, 10, 11].getD fn.toNat 0) (s.slot rs1.toNat) else s.slot n) t

/-- R543 with the formula of R18. -/
def Obligations.DcmpDecompressesCoefficients : Prop :=
  ∀ (zero fn : BitVec 3) (rs2 rs1 rd : Slot) (s : State), ∃ t, exec (.dcmp zero fn rs2 rs1 rd) s = .next t ∧
    let d := [1, 4, 5, 10, 11].getD fn.toNat 0
    if zero ≠ 0 ∨ rs2 ≠ 0 ∨ 4 < fn.toNat then t = failed 2 s
    else if ∃ i ∈ Finset.range 256, 2 ^ d ≤ ((s.slot rs1.toNat).get i).val then t = failed 6 s
    else slotsBecome s (fun n => if n = rd.toNat then grow d (s.slot rs1.toNat) else s.slot n) t

/-- R481, R309, whatever the four hash functions are (free constants), for a byte RAM in its canonical form. -/
def Obligations.HashWritesDigest : Prop :=
  ∀ (zero fn : BitVec 3) (regs : BitVec 18) (s : State), s.bram.wf = true →
    ∃ t, exec (.hash zero fn regs) s = .next t ∧
      let X := s.bram.readBytes s.hsrc.toNat s.hlen.toNat
      let n := if fn = 0 then 32 else if fn = 1 then 64 else s.holen.toNat
      let Y : Nat → Byte := fun k =>
        if fn = 0 then (hashH32 X).getD k 0 else if fn = 1 then (hashG64 X).getD k 0
        else if fn = 2 then Config.shake256Stream X k else Config.shake128 X k
      if zero ≠ 0 ∨ regs ≠ 0 ∨ 3 < fn.toNat then t = failed 2 s
      else if 8192 < s.hsrc.toNat + s.hlen.toNat ∨ 8192 < s.hdst.toNat + n then t = failed 4 s
      else bytesBecome s (fun a => if within s.hdst.toNat n a then Y (a - s.hdst.toNat) else s.bram.read a) t

/-- R600, R601. -/
def Obligations.CteqComparesStrings : Prop :=
  ∀ (zero : BitVec 24) (s : State), exec (.cteq zero) s = .next (
    if zero ≠ 0 then failed 2 s
    else if 8192 < s.hsrc.toNat + s.hlen.toNat ∨ 8192 < s.hdst.toNat + s.hlen.toNat then failed 4 s
    else succeeded { s with res :=
      if (∀ i < s.hlen.toNat, s.bram.read (s.hsrc.toNat + i) = s.bram.read (s.hdst.toNat + i)) then 1 else 0 })

/-- R563 with the function of R562 (keyGen, in ℤ_q) and the wipe of R561. How many chunks of each stream have been examined when
the core moves is the model's own field `chunks` (log 3). -/
def Obligations.KpkeKeygenWritesKeysThenWipes : Prop :=
  ∀ (zero : BitVec 24) (s : State), s.bram.wf = true → ∃ t, exec (.kpkeKeygen zero) s = .next t ∧
    let d := s.bram.readBytes 0x1EC0 32
    let out := keyGen (matrix s.chunks (keyGenRho d)) d
    (zero ≠ 0 → t = failed 2 s) ∧
    (zero = 0 → ¬matrixReady s.chunks (keyGenRho d) → t = notYet s) ∧
    (zero = 0 → matrixReady s.chunks (keyGenRho d) → sequenced s false (fun a =>
      if within 0x18A0 1568 a ∨ within 0x1F60 160 a then 0
      else if within 0x0C60 1568 a then out.1.getD (a - 0x0C60) 0
      else if within 0x0000 1536 a then out.2.getD a 0
      else s.bram.read a) t)

/-- R565 with the function of R564 (encrypt, in ℤ_q) and the wipe of R561. How many chunks of each stream have been examined when
the core moves is the model's own field `chunks` (log 3). -/
def Obligations.KpkeEncWritesCiphertextThenWipes : Prop :=
  ∀ (zero : BitVec 24) (s : State), s.bram.wf = true → ∃ t, exec (.kpkeEnc zero) s = .next t ∧
    let ek := s.bram.readBytes 0x0C60 1568
    let rho := s.bram.readBytes 0x1260 32
    let c := encrypt (matrix s.chunks rho) ek (s.bram.readBytes 0x1F00 32) (s.bram.readBytes 0x1F40 32)
    (zero ≠ 0 → t = failed 2 s) ∧
    (zero = 0 → ¬matrixReady s.chunks rho → t = notYet s) ∧
    (zero = 0 → matrixReady s.chunks rho → sequenced s (nonCanonical ek 1024) (fun a =>
      if within 0x18A0 1568 a ∨ within 0x1F60 160 a then 0
      else if within 0x1280 1568 a then c.getD (a - 0x1280) 0
      else s.bram.read a) t)

/-- R567 with the function of R566 (decrypt, in ℤ_q; no NTT on the decoded ŝ) and the wipe of R561. -/
def Obligations.KpkeDecWritesMessageThenWipes : Prop :=
  ∀ (zero : BitVec 24) (s : State), s.bram.wf = true → ∃ t, exec (.kpkeDec zero) s = .next t ∧
    let m := decrypt (s.bram.readBytes 0x0000 1536) (s.bram.readBytes 0x1280 1568)
    if zero ≠ 0 then t = failed 2 s
    else sequenced s false (fun a =>
      if within 0x18A0 1568 a ∨ within 0x1F60 160 a then 0
      else if within 0x1F00 32 a then m.getD (a - 0x1F00) 0
      else s.bram.read a) t

/-- R591 with the function of R590 and the wipe of R561. How many chunks of each stream have been examined when
the core moves is the model's own field `chunks` (log 3). -/
def Obligations.MlkemKeygenWritesKeysThenWipes : Prop :=
  ∀ (zero : BitVec 24) (s : State), s.bram.wf = true → ∃ t, exec (.mlkemKeygen zero) s = .next t ∧
    let d := s.bram.readBytes 0x1EC0 32
    let out := keyGen (matrix s.chunks (keyGenRho d)) d
    let dk := out.2 ++ out.1 ++ hashH32 out.1 ++ s.bram.readBytes 0x1EE0 32
    (zero ≠ 0 → t = failed 2 s) ∧
    (zero = 0 → ¬matrixReady s.chunks (keyGenRho d) → t = notYet s) ∧
    (zero = 0 → matrixReady s.chunks (keyGenRho d) → sequenced s false (fun a =>
      if within 0x18A0 1568 a ∨ within 0x1F60 160 a ∨ within 0x1EC0 64 a then 0
      else if within 0x0C60 1568 a then out.1.getD (a - 0x0C60) 0
      else if within 0x0000 3168 a then dk.getD a 0
      else s.bram.read a) t)

/-- R593 with the function of R592 and the wipe of R561. How many chunks of each stream have been examined when
the core moves is the model's own field `chunks` (log 3). -/
def Obligations.MlkemEncapsWritesCiphertextAndSecret : Prop :=
  ∀ (zero : BitVec 24) (s : State), s.bram.wf = true → ∃ t, exec (.mlkemEncaps zero) s = .next t ∧
    let ek := s.bram.readBytes 0x0C60 1568
    let rho := s.bram.readBytes 0x1260 32
    let m := s.bram.readBytes 0x1F00 32
    let g := hashG64 (m ++ hashH32 ek)
    let c := encrypt (matrix s.chunks rho) ek m (g.drop 32)
    (zero ≠ 0 → t = failed 2 s) ∧
    (zero = 0 → ¬matrixReady s.chunks rho → t = notYet s) ∧
    (zero = 0 → matrixReady s.chunks rho → sequenced s (nonCanonical ek 1024) (fun a =>
      if within 0x18A0 1568 a ∨ within 0x1F60 160 a ∨ within 0x1F00 32 a ∨ within 0x1F40 32 a then 0
      else if within 0x1280 1568 a then c.getD (a - 0x1280) 0
      else if within 0x1F20 32 a then g.getD (a - 0x1F20) 0
      else s.bram.read a) t)

/-- R595 with the function of R594 and the wipe of R561. How many chunks of each stream have been examined when
the core moves is the model's own field `chunks` (log 3). -/
def Obligations.MlkemDecapsWritesSecretOrRejects : Prop :=
  ∀ (zero : BitVec 24) (s : State), s.bram.wf = true → ∃ t, exec (.mlkemDecaps zero) s = .next t ∧
    let ek := s.bram.readBytes 0x0600 1568
    let rho := s.bram.readBytes 0x0C00 32
    let c := s.bram.readBytes 0x1280 1568
    let m := decrypt (s.bram.readBytes 0x0000 1536) c
    let g := hashG64 (m ++ s.bram.readBytes 0x0C20 32)
    let K := if encrypt (matrix s.chunks rho) ek m (g.drop 32) = c then g.take 32
      else hashJ32 (s.bram.readBytes 0x0C40 32 ++ c)
    (zero ≠ 0 → t = failed 2 s) ∧
    (zero = 0 → ¬matrixReady s.chunks rho → t = notYet s) ∧
    (zero = 0 → matrixReady s.chunks rho → sequenced s (nonCanonical ek 1024) (fun a =>
      if within 0x18A0 1568 a ∨ within 0x1F60 160 a ∨ within 0x1F40 32 a then 0
      else if within 0x1F20 32 a then K.getD (a - 0x1F20) 0
      else s.bram.read a) t)

/-- R421: "For every Poly f, INTT(NTT(f)) = f." -/
def Obligations.InttInvertsNtt : Prop :=
  ∀ f : Poly, intt (ntt f) = f

/-- R424: "NTT(p) pointwise-multiplied by NTT(q), then INTT'd, equals p·q in R_q". -/
def Obligations.NttMultipliesPolynomials : Prop :=
  ∀ (a b : Poly) (n : Nat), n < 256 → (intt (baseMul (ntt a) (ntt b))).get n = ringProduct a b n

/-- R18. -/
def Obligations.CompressRounds : Prop :=
  (∀ d ∈ [1, 4, 5, 10, 11], ∀ x, x < 3329 → (compress d x : Int) = ⌊(2 ^ d / 3329 : ℚ) * x + 1 / 2⌋ % 2 ^ d) ∧
  (∀ d ∈ [1, 4, 5, 10, 11, 12], ∀ y, y < 2 ^ d →
    (decompress d y : Int) = ⌊(3329 / 2 ^ d : ℚ) * y + 1 / 2⌋ ∧ decompress d y ≤ 3328) ∧
  ∀ x, x < 3329 → (compress 1 x = 1 ↔ 833 ≤ x ∧ x < 2497)

/-- R544, property 6, extended to d = 1. -/
def Obligations.EncDecRestores : Prop :=
  ∀ (addr : ByteAddr) (dcode : BitVec 3) (rs rd : Slot) (s : State),
    let d := [1, 4, 5, 10, 11, 12].getD dcode.toNat 0
    s.bram.wf = true → dcode.toNat ≤ 5 → addr.toNat + 32 * d ≤ 8192 →
    (∀ i, i < 256 → ((s.slot rs.toNat).get i).val < 2 ^ d) →
    ∃ t u, exec (.enc addr 0 dcode rs) s = .next t ∧ exec (.dec addr 0 dcode rd) t = .next u ∧
      t.status.err = false ∧ u.status.err = false ∧
      u.slot rd.toNat = s.slot rs.toNat ∧ u.status.noncanon = s.status.noncanon

/-- R544, the second and third round trips. -/
def Obligations.CompressionRoundTrips : Prop :=
  (∀ (fn : BitVec 3) (rs1 rd : Slot) (s : State), fn.toNat ≤ 4 →
    (∀ i, i < 256 → ((s.slot rs1.toNat).get i).val < 2 ^ [1, 4, 5, 10, 11].getD fn.toNat 0) →
    ∃ t u, exec (.dcmp 0 fn 0 rs1 rd) s = .next t ∧ exec (.cmpr 0 fn 0 rd rd) t = .next u ∧
      t.status.err = false ∧ u.status.err = false ∧ u.slot rd.toNat = s.slot rs1.toNat) ∧
  ∀ d ∈ [1, 4, 5, 10, 11], ∀ x, x < 3329 →
    let e := ((decompress d (compress d x) : Int) - x) % 3329
    e * 2 ^ (d + 1) < 3329 + 2 ^ (d + 1) ∨ (3329 - e) * 2 ^ (d + 1) < 3329 + 2 ^ (d + 1)

/-- R700: "It writes no RAM cell and no other register, flag or field", with the one exception of R503; R704: no command ends with
part of its effect. The first outcome is the model's form of R505 (log 3). -/
def Obligations.CompletionOutcomes : Prop :=
  ∀ s : State, s.status.busy = true → s.busyLeft = 0 → ∃ t, step s = .next t ∧
    (t = notYet s ∨
      (∃ c : BitVec 4, 1 ≤ c.toNat ∧ c.toNat ≤ 7 ∧ t = failed c s) ∨
      (∃ n : Word, s.cmd.extractLsb' 0 8 = 0x33 ∧ t = failed 7 { s with consumed := n }) ∨
      (t = succeeded t ∧ sameControl s t))

/-- R122, R123, R124 and R504, R117. -/
def Obligations.OnlyTheirCommandsWriteResults : Prop :=
  ∀ (i : Instr) (s : State), ∃ t, exec i s = .next t ∧
    (t.res ≠ s.res → opcodeOf i ∈ [0x01#8, 0x02#8, 0x03#8, 0x04#8, 0x51#8]) ∧
    (t.nonce ≠ s.nonce → opcodeOf i = 0x31#8) ∧
    (t.consumed ≠ s.consumed → opcodeOf i ∈ [0x32#8, 0x33#8]) ∧
    (t.status.noncanon ≠ s.status.noncanon → opcodeOf i ∈ [0x41#8, 0x61#8, 0x69#8, 0x6A#8] ∧ t.status.noncanon = true) ∧
    (t.slots ≠ s.slots → opcodeOf i ∉ [0x00#8, 0x01#8, 0x02#8, 0x03#8, 0x04#8, 0x40#8, 0x50#8, 0x51#8])

/-- R113, the first two sentences. -/
def Obligations.DoneOnlyByCompletion : Prop :=
  ∀ s t : State, step s = .next t →
    (s.status.done = false → t.status.done = true →
      s.status.busy = true ∧ s.busyLeft = 0 ∧ t.status.busy = false) ∧
    (s.status.done = true → t.status.done = false → ∃ op, s.inputs.head? = some op ∧
      (¬quiet op ∨ (∃ data : Word, op = .write 0x008 data 0xF ∧ data.getLsbD 1 = true) ∨
        (s.status.busy = false ∧ ∃ data : Word, op = .write 0x00C data 0xF)))

/-- R207, R214, R811: no operand write can race a running command. -/
def Obligations.RunningCommandIsUndisturbed : Prop :=
  ∀ (op : HostOp) (s : State), s.status.busy = true → quiet op →
    let t := applyHostOp op s
    t = { s with ie := t.ie, status := t.status, rdata := t.rdata } ∧
      t.status.busy = true ∧ t.status.errCode = s.status.errCode

/-- R204 and the first row of R706 ("any access"). That a refused read changes ACCERR although R206 says reads change no state is the
model's choice (log 9), and so is ACCERR on a misaligned write with strobe 0000, where R205 sets no flag (log 4),
and ACCERR on a misaligned access to reserved or unmapped space, where the last row of R706 sets no flag (log 15). -/
def Obligations.MisalignedAccessRefused : Prop :=
  ∀ (addr : HostAddr) (data : Word) (wstrb : BitVec 4) (s : State), addr.toNat % 4 ≠ 0 →
    let refused : State := { s with status := { s.status with accerr := true } }
    hostRead addr s = (0, refused) ∧ hostWrite addr data wstrb s = refused

/-- R101, R102, R110-R126, R202, R206, and irq (R161, R708). -/
def Obligations.RegisterReads : Prop :=
  ∀ s : State,
    hostRead 0x000 s = (0x4D4C4B34, s) ∧ hostRead 0x004 s = (if s.ie then 1 else 0, s) ∧
    hostRead 0x00C s = (s.cmd, s) ∧ hostRead 0x010 s = (BitVec.ofNat 32 s.opa.toNat, s) ∧
    hostRead 0x014 s = (BitVec.ofNat 32 s.opb.toNat, s) ∧ hostRead 0x018 s = (s.opx, s) ∧
    hostRead 0x01C s = (BitVec.ofNat 32 s.res.toNat, s) ∧ hostRead 0x020 s = (BitVec.ofNat 32 s.nonce.toNat, s) ∧
    hostRead 0x024 s = (s.consumed, s) ∧ hostRead 0x028 s = (BitVec.ofNat 32 s.hsrc.toNat, s) ∧
    hostRead 0x02C s = (BitVec.ofNat 32 s.hlen.toNat, s) ∧ hostRead 0x030 s = (BitVec.ofNat 32 s.hdst.toNat, s) ∧
    hostRead 0x034 s = (BitVec.ofNat 32 s.holen.toNat, s) ∧
    (hostRead 0x008 s).2 = s ∧ (hostRead 0x008 s).1.getLsbD 0 = s.status.busy ∧
    (hostRead 0x008 s).1.getLsbD 1 = s.status.done ∧ (hostRead 0x008 s).1.getLsbD 2 = s.status.err ∧
    (hostRead 0x008 s).1.getLsbD 3 = false ∧ (hostRead 0x008 s).1.extractLsb' 4 4 = s.status.errCode ∧
    (hostRead 0x008 s).1.getLsbD 8 = s.status.accerr ∧ (hostRead 0x008 s).1.getLsbD 9 = s.status.overrun ∧
    (hostRead 0x008 s).1.getLsbD 10 = s.status.noncanon ∧ (hostRead 0x008 s).1.extractLsb' 11 21 = 0 ∧
    (s.irq = true ↔ (hostRead 0x004 s).1.getLsbD 0 = true ∧ (hostRead 0x008 s).1.getLsbD 1 = true) ∧
    ∀ addr : HostAddr, addr.toNat % 4 = 0 →
      (0x00038 ≤ addr.toNat ∧ addr.toNat < 0x10000) ∨ (0x22000 ≤ addr.toNat ∧ addr.toNat < 0x30000) ∨
        0x30600 ≤ addr.toNat → hostRead addr s = (0, s)

/-- R101, R110, R111, R116, R118, R119, R123, R125, R126, R202, R205, R207. Full-word writes of CMD, STATUS and SRST are CmdWrite,
StatusWriteOneToClear and SoftResetIsReset. The model's choices: ACCERR on a partial strobe at a read-only register, and both flags
at CMD while busy (log 4); the refusal of a partial strobe at CTRL and STATUS (log 10); no flag at strobe 0000
whatever the register (log 13); no flag on a partial strobe in reserved or unmapped space (log 14). -/
def Obligations.RegisterWrites : Prop :=
  ∀ (data : Word) (s : State),
    let refused : State := { s with status := { s.status with accerr := true } }
    (s.status.busy = false →
      hostWrite 0x010 data 0xF s = { s with opa := BitVec.ofNat 16 data.toNat } ∧
      hostWrite 0x014 data 0xF s = { s with opb := BitVec.ofNat 16 data.toNat } ∧
      hostWrite 0x018 data 0xF s = { s with opx := data } ∧
      hostWrite 0x020 data 0xF s = { s with nonce := BitVec.ofNat 8 data.toNat } ∧
      hostWrite 0x028 data 0xF s = { s with hsrc := BitVec.ofNat 13 data.toNat } ∧
      hostWrite 0x02C data 0xF s = { s with hlen := BitVec.ofNat 14 data.toNat } ∧
      hostWrite 0x030 data 0xF s = { s with hdst := BitVec.ofNat 13 data.toNat } ∧
      hostWrite 0x034 data 0xF s = { s with holen := BitVec.ofNat 14 data.toNat }) ∧
    (s.status.busy = true → ∀ addr ∈ [0x010, 0x014, 0x018, 0x020, 0x028, 0x02C, 0x030, 0x034],
      hostWrite addr data 0xF s = refused) ∧
    (data.getLsbD 1 = false → hostWrite 0x004 data 0xF s = { s with ie := data.getLsbD 0 }) ∧
    (∀ addr ∈ [0x000, 0x01C, 0x024], hostWrite addr data 0xF s = s) ∧
    (∀ addr : HostAddr, addr.toNat % 4 = 0 →
      (0x00038 ≤ addr.toNat ∧ addr.toNat < 0x10000) ∨ (0x22000 ≤ addr.toNat ∧ addr.toNat < 0x30000) ∨
        0x30600 ≤ addr.toNat → hostWrite addr data 0xF s = s) ∧
    (∀ wstrb : BitVec 4, wstrb ≠ 0 → wstrb ≠ 0xF →
      (∀ addr ∈ [0x000, 0x004, 0x008, 0x010, 0x014, 0x018, 0x01C, 0x020, 0x024, 0x028, 0x02C, 0x030, 0x034],
        hostWrite addr data wstrb s = refused) ∧
      (s.status.busy = false → hostWrite 0x00C data wstrb s = refused) ∧
      (s.status.busy = true →
        hostWrite 0x00C data wstrb s = { s with status := { s.status with accerr := true, overrun := true } }) ∧
      ∀ addr : HostAddr, addr.toNat % 4 = 0 →
        (0x00038 ≤ addr.toNat ∧ addr.toNat < 0x10000) ∨ (0x22000 ≤ addr.toNat ∧ addr.toNat < 0x30000) ∨
          0x30600 ≤ addr.toNat → hostWrite addr data wstrb s = s) ∧
    ∀ addr : HostAddr, addr.toNat % 4 = 0 → hostWrite addr data 0 s = s

/-- R210, R211, R212, R213, and the slot-window part of R205 and R214. That a read refused while busy changes ACCERR although R206
says reads change no state is the model's choice (log 9). -/
def Obligations.SlotWindow : Prop :=
  ∀ (k i : Nat) (data : Word) (wstrb : BitVec 4) (s : State), k < 64 → i < 256 →
    let a : HostAddr := BitVec.ofNat 18 (0x10000 + 1024 * k + 4 * i)
    let refused : State := { s with status := { s.status with accerr := true } }
    (s.status.busy = false → hostRead a s = (BitVec.ofNat 32 ((s.slot k).get i).val, s)) ∧
    (s.status.busy = true → hostRead a s = (0, refused)) ∧
    (wstrb ≠ 0 → (s.status.busy = true ∨ wstrb ≠ 0xF ∨ 3329 ≤ data.toNat) → hostWrite a data wstrb s = refused) ∧
    (s.status.busy = false → data.toNat < 3329 →
      let t := hostWrite a data 0xF s
      t = { s with slots := t.slots } ∧
        ∀ n m, n < 64 → m < 256 →
          ((t.slot n).get m).val = if n = k ∧ m = i then data.toNat else ((s.slot n).get m).val)

/-- R220, and the byte-RAM part of R214, for a byte RAM in its canonical form. That a read refused while busy changes ACCERR although
R206 says reads change no state is the model's choice (log 9). -/
def Obligations.ByteWindow : Prop :=
  ∀ (k : Nat) (data : Word) (wstrb : BitVec 4) (s : State), k < 8192 → k % 4 = 0 → s.bram.wf = true →
    let a : HostAddr := BitVec.ofNat 18 (0x20000 + k)
    let refused : State := { s with status := { s.status with accerr := true } }
    (s.status.busy = false →
      hostRead a s = (s.bram.read (k + 3) ++ s.bram.read (k + 2) ++ s.bram.read (k + 1) ++ s.bram.read k, s) ∧
      let t := hostWrite a data wstrb s
      t = { s with bram := t.bram } ∧
        ∀ x, t.bram.read x =
          if within k 4 x ∧ wstrb.getLsbD (x - k) = true then data.extractLsb' (8 * (x - k)) 8 else s.bram.read x) ∧
    (s.status.busy = true → hostRead a s = (0, refused) ∧ (wstrb ≠ 0 → hostWrite a data wstrb s = refused))

/-- R230, with the formulas of R140 and R13. -/
def Obligations.RomWindow : Prop :=
  ∀ (k : Nat) (data : Word) (wstrb : BitVec 4) (s : State), k < 384 →
    let a : HostAddr := BitVec.ofNat 18 (0x30000 + 4 * k)
    hostRead a s = (BitVec.ofNat 32 (
      if k < 128 then (zetaPower k).val else if k < 256 then (gammaPower (k - 128)).val else reversed (k - 256)), s) ∧
    (wstrb ≠ 0 → hostWrite a data wstrb s = { s with status := { s.status with accerr := true } })

/-- R121 step 1 and R116; the three fields the accept leaves open here are the model's own (logs 2 and 3). -/
def Obligations.CmdWrite : Prop :=
  ∀ (w : Word) (s : State),
    (s.status.busy = false →
      let t := hostWrite 0x00C w 0xF s
      t = { s with
        cmd := w
        status := { s.status with busy := true, done := false, err := false, errCode := 0 }
        busyLeft := t.busyLeft, chunks := t.chunks, accepts := t.accepts }) ∧
    (s.status.busy = true → hostWrite 0x00C w 0xF s = { s with status := { s.status with overrun := true } })

/-- R112: "It clears each W1C field whose data bit is 1 and leaves every other field unchanged." -/
def Obligations.StatusWriteOneToClear : Prop :=
  ∀ (data : Word) (s : State), hostWrite 0x008 data 0xF s = { s with status := { s.status with
    done := if data.getLsbD 1 then false else s.status.done
    err := if data.getLsbD 2 then false else s.status.err
    accerr := if data.getLsbD 8 then false else s.status.accerr
    overrun := if data.getLsbD 9 then false else s.status.overrun
    noncanon := if data.getLsbD 10 then false else s.status.noncanon } }

/-- R802, R803. What the reset leaves in the model's own fields `inputs`, `rdata` and `accepts` is not stated here (log 5). -/
def Obligations.SoftResetIsReset : Prop :=
  ∀ (data : Word) (s : State), data.getLsbD 1 = true →
    hostWrite 0x004 data 0xF s = applyHostOp .reset s ∧
    { applyHostOp .reset s with inputs := [], rdata := 0, accepts := 0 } = State.reset

/-- R850 (fairness), R851, R505, R862. The bound is the model's (logs 2 and 3); that there is one, and that an undefined command hangs, is
the spec's. -/
def Obligations.CommandCompletesIffDefined : Prop :=
  ∀ s : State, s.status.busy = true → (∀ op ∈ s.inputs, quiet op) →
    (∀ c, (∀ i, decode s.cmd = .ok i → definedWithin c s i) →
      ∃ n t, n ≤ s.busyLeft + 2 * c + 1 ∧ core.run n s = .next t ∧ t.status.busy = false ∧ t.status.done = true) ∧
    (∀ (n : Nat) (t : State), core.run n s = .next t → t.status.busy = false →
      ∃ c, ∀ i, decode s.cmd = .ok i → definedWithin c s i) ∧
    (s.inputs = [] → ((∃ t, EndState s t) ↔ ∃ c, ∀ i, decode s.cmd = .ok i → definedWithin c s i))

/-- R597: no failure signal. -/
def Obligations.DecapsReportsNothing : Prop :=
  ∀ (zero : BitVec 24) (s : State) (m : Memory), s.bram.wf = true → m.wf = true →
    (∀ a, ¬within 0x1280 1568 a → m.read a = s.bram.read a) →
    ∃ t u, exec (.mlkemDecaps zero) s = .next t ∧ exec (.mlkemDecaps zero) { s with bram := m } = .next u ∧
      u = { t with bram := u.bram } ∧
      ∀ a, ¬within 0x1280 1568 a → ¬within 0x1F20 32 a → u.bram.read a = t.bram.read a
end

