-- ==== Sys2Proof/Laws/State.lean ====
section
/-! SUPPORT. What each named update of the state leaves in each field: one lemma per field per update, true by rfl. -/

namespace Sys2Proof.Machine

/-! ## setStatus -/

@[simp] theorem State.setStatus_ie (s : State) (f : Status) : (s.setStatus f).ie = s.ie := rfl
@[simp] theorem State.setStatus_status (s : State) (f : Status) : (s.setStatus f).status = f := rfl
@[simp] theorem State.setStatus_cmd (s : State) (f : Status) : (s.setStatus f).cmd = s.cmd := rfl
@[simp] theorem State.setStatus_opa (s : State) (f : Status) : (s.setStatus f).opa = s.opa := rfl
@[simp] theorem State.setStatus_opb (s : State) (f : Status) : (s.setStatus f).opb = s.opb := rfl
@[simp] theorem State.setStatus_opx (s : State) (f : Status) : (s.setStatus f).opx = s.opx := rfl
@[simp] theorem State.setStatus_res (s : State) (f : Status) : (s.setStatus f).res = s.res := rfl
@[simp] theorem State.setStatus_nonce (s : State) (f : Status) : (s.setStatus f).nonce = s.nonce := rfl
@[simp] theorem State.setStatus_consumed (s : State) (f : Status) : (s.setStatus f).consumed = s.consumed := rfl
@[simp] theorem State.setStatus_hsrc (s : State) (f : Status) : (s.setStatus f).hsrc = s.hsrc := rfl
@[simp] theorem State.setStatus_hlen (s : State) (f : Status) : (s.setStatus f).hlen = s.hlen := rfl
@[simp] theorem State.setStatus_hdst (s : State) (f : Status) : (s.setStatus f).hdst = s.hdst := rfl
@[simp] theorem State.setStatus_holen (s : State) (f : Status) : (s.setStatus f).holen = s.holen := rfl
@[simp] theorem State.setStatus_slots (s : State) (f : Status) : (s.setStatus f).slots = s.slots := rfl
@[simp] theorem State.setStatus_bram (s : State) (f : Status) : (s.setStatus f).bram = s.bram := rfl
@[simp] theorem State.setStatus_inputs (s : State) (f : Status) : (s.setStatus f).inputs = s.inputs := rfl
@[simp] theorem State.setStatus_rdata (s : State) (f : Status) : (s.setStatus f).rdata = s.rdata := rfl
@[simp] theorem State.setStatus_busyLeft (s : State) (f : Status) : (s.setStatus f).busyLeft = s.busyLeft := rfl
@[simp] theorem State.setStatus_chunks (s : State) (f : Status) : (s.setStatus f).chunks = s.chunks := rfl
@[simp] theorem State.setStatus_accepts (s : State) (f : Status) : (s.setStatus f).accepts = s.accepts := rfl

/-! ## setRes -/

@[simp] theorem State.setRes_ie (s : State) (v : Nat) : (s.setRes v).ie = s.ie := rfl
@[simp] theorem State.setRes_status (s : State) (v : Nat) : (s.setRes v).status = s.status := rfl
@[simp] theorem State.setRes_cmd (s : State) (v : Nat) : (s.setRes v).cmd = s.cmd := rfl
@[simp] theorem State.setRes_opa (s : State) (v : Nat) : (s.setRes v).opa = s.opa := rfl
@[simp] theorem State.setRes_opb (s : State) (v : Nat) : (s.setRes v).opb = s.opb := rfl
@[simp] theorem State.setRes_opx (s : State) (v : Nat) : (s.setRes v).opx = s.opx := rfl
@[simp] theorem State.setRes_res (s : State) (v : Nat) : (s.setRes v).res = BitVec.ofNat 16 v := rfl
@[simp] theorem State.setRes_nonce (s : State) (v : Nat) : (s.setRes v).nonce = s.nonce := rfl
@[simp] theorem State.setRes_consumed (s : State) (v : Nat) : (s.setRes v).consumed = s.consumed := rfl
@[simp] theorem State.setRes_hsrc (s : State) (v : Nat) : (s.setRes v).hsrc = s.hsrc := rfl
@[simp] theorem State.setRes_hlen (s : State) (v : Nat) : (s.setRes v).hlen = s.hlen := rfl
@[simp] theorem State.setRes_hdst (s : State) (v : Nat) : (s.setRes v).hdst = s.hdst := rfl
@[simp] theorem State.setRes_holen (s : State) (v : Nat) : (s.setRes v).holen = s.holen := rfl
@[simp] theorem State.setRes_slots (s : State) (v : Nat) : (s.setRes v).slots = s.slots := rfl
@[simp] theorem State.setRes_bram (s : State) (v : Nat) : (s.setRes v).bram = s.bram := rfl
@[simp] theorem State.setRes_inputs (s : State) (v : Nat) : (s.setRes v).inputs = s.inputs := rfl
@[simp] theorem State.setRes_rdata (s : State) (v : Nat) : (s.setRes v).rdata = s.rdata := rfl
@[simp] theorem State.setRes_busyLeft (s : State) (v : Nat) : (s.setRes v).busyLeft = s.busyLeft := rfl
@[simp] theorem State.setRes_chunks (s : State) (v : Nat) : (s.setRes v).chunks = s.chunks := rfl
@[simp] theorem State.setRes_accepts (s : State) (v : Nat) : (s.setRes v).accepts = s.accepts := rfl

/-! ## setNonce -/

@[simp] theorem State.setNonce_ie (s : State) (v : BitVec 8) : (s.setNonce v).ie = s.ie := rfl
@[simp] theorem State.setNonce_status (s : State) (v : BitVec 8) : (s.setNonce v).status = s.status := rfl
@[simp] theorem State.setNonce_cmd (s : State) (v : BitVec 8) : (s.setNonce v).cmd = s.cmd := rfl
@[simp] theorem State.setNonce_opa (s : State) (v : BitVec 8) : (s.setNonce v).opa = s.opa := rfl
@[simp] theorem State.setNonce_opb (s : State) (v : BitVec 8) : (s.setNonce v).opb = s.opb := rfl
@[simp] theorem State.setNonce_opx (s : State) (v : BitVec 8) : (s.setNonce v).opx = s.opx := rfl
@[simp] theorem State.setNonce_res (s : State) (v : BitVec 8) : (s.setNonce v).res = s.res := rfl
@[simp] theorem State.setNonce_nonce (s : State) (v : BitVec 8) : (s.setNonce v).nonce = v := rfl
@[simp] theorem State.setNonce_consumed (s : State) (v : BitVec 8) : (s.setNonce v).consumed = s.consumed := rfl
@[simp] theorem State.setNonce_hsrc (s : State) (v : BitVec 8) : (s.setNonce v).hsrc = s.hsrc := rfl
@[simp] theorem State.setNonce_hlen (s : State) (v : BitVec 8) : (s.setNonce v).hlen = s.hlen := rfl
@[simp] theorem State.setNonce_hdst (s : State) (v : BitVec 8) : (s.setNonce v).hdst = s.hdst := rfl
@[simp] theorem State.setNonce_holen (s : State) (v : BitVec 8) : (s.setNonce v).holen = s.holen := rfl
@[simp] theorem State.setNonce_slots (s : State) (v : BitVec 8) : (s.setNonce v).slots = s.slots := rfl
@[simp] theorem State.setNonce_bram (s : State) (v : BitVec 8) : (s.setNonce v).bram = s.bram := rfl
@[simp] theorem State.setNonce_inputs (s : State) (v : BitVec 8) : (s.setNonce v).inputs = s.inputs := rfl
@[simp] theorem State.setNonce_rdata (s : State) (v : BitVec 8) : (s.setNonce v).rdata = s.rdata := rfl
@[simp] theorem State.setNonce_busyLeft (s : State) (v : BitVec 8) : (s.setNonce v).busyLeft = s.busyLeft := rfl
@[simp] theorem State.setNonce_chunks (s : State) (v : BitVec 8) : (s.setNonce v).chunks = s.chunks := rfl
@[simp] theorem State.setNonce_accepts (s : State) (v : BitVec 8) : (s.setNonce v).accepts = s.accepts := rfl

/-! ## setConsumed -/

@[simp] theorem State.setConsumed_ie (s : State) (v : Nat) : (s.setConsumed v).ie = s.ie := rfl
@[simp] theorem State.setConsumed_status (s : State) (v : Nat) : (s.setConsumed v).status = s.status := rfl
@[simp] theorem State.setConsumed_cmd (s : State) (v : Nat) : (s.setConsumed v).cmd = s.cmd := rfl
@[simp] theorem State.setConsumed_opa (s : State) (v : Nat) : (s.setConsumed v).opa = s.opa := rfl
@[simp] theorem State.setConsumed_opb (s : State) (v : Nat) : (s.setConsumed v).opb = s.opb := rfl
@[simp] theorem State.setConsumed_opx (s : State) (v : Nat) : (s.setConsumed v).opx = s.opx := rfl
@[simp] theorem State.setConsumed_res (s : State) (v : Nat) : (s.setConsumed v).res = s.res := rfl
@[simp] theorem State.setConsumed_nonce (s : State) (v : Nat) : (s.setConsumed v).nonce = s.nonce := rfl
@[simp] theorem State.setConsumed_consumed (s : State) (v : Nat) : (s.setConsumed v).consumed = BitVec.ofNat 32 v := rfl
@[simp] theorem State.setConsumed_hsrc (s : State) (v : Nat) : (s.setConsumed v).hsrc = s.hsrc := rfl
@[simp] theorem State.setConsumed_hlen (s : State) (v : Nat) : (s.setConsumed v).hlen = s.hlen := rfl
@[simp] theorem State.setConsumed_hdst (s : State) (v : Nat) : (s.setConsumed v).hdst = s.hdst := rfl
@[simp] theorem State.setConsumed_holen (s : State) (v : Nat) : (s.setConsumed v).holen = s.holen := rfl
@[simp] theorem State.setConsumed_slots (s : State) (v : Nat) : (s.setConsumed v).slots = s.slots := rfl
@[simp] theorem State.setConsumed_bram (s : State) (v : Nat) : (s.setConsumed v).bram = s.bram := rfl
@[simp] theorem State.setConsumed_inputs (s : State) (v : Nat) : (s.setConsumed v).inputs = s.inputs := rfl
@[simp] theorem State.setConsumed_rdata (s : State) (v : Nat) : (s.setConsumed v).rdata = s.rdata := rfl
@[simp] theorem State.setConsumed_busyLeft (s : State) (v : Nat) : (s.setConsumed v).busyLeft = s.busyLeft := rfl
@[simp] theorem State.setConsumed_chunks (s : State) (v : Nat) : (s.setConsumed v).chunks = s.chunks := rfl
@[simp] theorem State.setConsumed_accepts (s : State) (v : Nat) : (s.setConsumed v).accepts = s.accepts := rfl

/-! ## setSlots -/

@[simp] theorem State.setSlots_ie (s : State) (v : Vector Poly 64) : (s.setSlots v).ie = s.ie := rfl
@[simp] theorem State.setSlots_status (s : State) (v : Vector Poly 64) : (s.setSlots v).status = s.status := rfl
@[simp] theorem State.setSlots_cmd (s : State) (v : Vector Poly 64) : (s.setSlots v).cmd = s.cmd := rfl
@[simp] theorem State.setSlots_opa (s : State) (v : Vector Poly 64) : (s.setSlots v).opa = s.opa := rfl
@[simp] theorem State.setSlots_opb (s : State) (v : Vector Poly 64) : (s.setSlots v).opb = s.opb := rfl
@[simp] theorem State.setSlots_opx (s : State) (v : Vector Poly 64) : (s.setSlots v).opx = s.opx := rfl
@[simp] theorem State.setSlots_res (s : State) (v : Vector Poly 64) : (s.setSlots v).res = s.res := rfl
@[simp] theorem State.setSlots_nonce (s : State) (v : Vector Poly 64) : (s.setSlots v).nonce = s.nonce := rfl
@[simp] theorem State.setSlots_consumed (s : State) (v : Vector Poly 64) : (s.setSlots v).consumed = s.consumed := rfl
@[simp] theorem State.setSlots_hsrc (s : State) (v : Vector Poly 64) : (s.setSlots v).hsrc = s.hsrc := rfl
@[simp] theorem State.setSlots_hlen (s : State) (v : Vector Poly 64) : (s.setSlots v).hlen = s.hlen := rfl
@[simp] theorem State.setSlots_hdst (s : State) (v : Vector Poly 64) : (s.setSlots v).hdst = s.hdst := rfl
@[simp] theorem State.setSlots_holen (s : State) (v : Vector Poly 64) : (s.setSlots v).holen = s.holen := rfl
@[simp] theorem State.setSlots_slots (s : State) (v : Vector Poly 64) : (s.setSlots v).slots = v := rfl
@[simp] theorem State.setSlots_bram (s : State) (v : Vector Poly 64) : (s.setSlots v).bram = s.bram := rfl
@[simp] theorem State.setSlots_inputs (s : State) (v : Vector Poly 64) : (s.setSlots v).inputs = s.inputs := rfl
@[simp] theorem State.setSlots_rdata (s : State) (v : Vector Poly 64) : (s.setSlots v).rdata = s.rdata := rfl
@[simp] theorem State.setSlots_busyLeft (s : State) (v : Vector Poly 64) : (s.setSlots v).busyLeft = s.busyLeft := rfl
@[simp] theorem State.setSlots_chunks (s : State) (v : Vector Poly 64) : (s.setSlots v).chunks = s.chunks := rfl
@[simp] theorem State.setSlots_accepts (s : State) (v : Vector Poly 64) : (s.setSlots v).accepts = s.accepts := rfl

/-! ## setBram -/

@[simp] theorem State.setBram_ie (s : State) (m : Memory) : (s.setBram m).ie = s.ie := rfl
@[simp] theorem State.setBram_status (s : State) (m : Memory) : (s.setBram m).status = s.status := rfl
@[simp] theorem State.setBram_cmd (s : State) (m : Memory) : (s.setBram m).cmd = s.cmd := rfl
@[simp] theorem State.setBram_opa (s : State) (m : Memory) : (s.setBram m).opa = s.opa := rfl
@[simp] theorem State.setBram_opb (s : State) (m : Memory) : (s.setBram m).opb = s.opb := rfl
@[simp] theorem State.setBram_opx (s : State) (m : Memory) : (s.setBram m).opx = s.opx := rfl
@[simp] theorem State.setBram_res (s : State) (m : Memory) : (s.setBram m).res = s.res := rfl
@[simp] theorem State.setBram_nonce (s : State) (m : Memory) : (s.setBram m).nonce = s.nonce := rfl
@[simp] theorem State.setBram_consumed (s : State) (m : Memory) : (s.setBram m).consumed = s.consumed := rfl
@[simp] theorem State.setBram_hsrc (s : State) (m : Memory) : (s.setBram m).hsrc = s.hsrc := rfl
@[simp] theorem State.setBram_hlen (s : State) (m : Memory) : (s.setBram m).hlen = s.hlen := rfl
@[simp] theorem State.setBram_hdst (s : State) (m : Memory) : (s.setBram m).hdst = s.hdst := rfl
@[simp] theorem State.setBram_holen (s : State) (m : Memory) : (s.setBram m).holen = s.holen := rfl
@[simp] theorem State.setBram_slots (s : State) (m : Memory) : (s.setBram m).slots = s.slots := rfl
@[simp] theorem State.setBram_bram (s : State) (m : Memory) : (s.setBram m).bram = m := rfl
@[simp] theorem State.setBram_inputs (s : State) (m : Memory) : (s.setBram m).inputs = s.inputs := rfl
@[simp] theorem State.setBram_rdata (s : State) (m : Memory) : (s.setBram m).rdata = s.rdata := rfl
@[simp] theorem State.setBram_busyLeft (s : State) (m : Memory) : (s.setBram m).busyLeft = s.busyLeft := rfl
@[simp] theorem State.setBram_chunks (s : State) (m : Memory) : (s.setBram m).chunks = s.chunks := rfl
@[simp] theorem State.setBram_accepts (s : State) (m : Memory) : (s.setBram m).accepts = s.accepts := rfl

/-! ## setSlot -/

@[simp] theorem State.setSlot_ie (s : State) (k : Nat) (p : Poly) : (s.setSlot k p).ie = s.ie := rfl
@[simp] theorem State.setSlot_status (s : State) (k : Nat) (p : Poly) : (s.setSlot k p).status = s.status := rfl
@[simp] theorem State.setSlot_cmd (s : State) (k : Nat) (p : Poly) : (s.setSlot k p).cmd = s.cmd := rfl
@[simp] theorem State.setSlot_opa (s : State) (k : Nat) (p : Poly) : (s.setSlot k p).opa = s.opa := rfl
@[simp] theorem State.setSlot_opb (s : State) (k : Nat) (p : Poly) : (s.setSlot k p).opb = s.opb := rfl
@[simp] theorem State.setSlot_opx (s : State) (k : Nat) (p : Poly) : (s.setSlot k p).opx = s.opx := rfl
@[simp] theorem State.setSlot_res (s : State) (k : Nat) (p : Poly) : (s.setSlot k p).res = s.res := rfl
@[simp] theorem State.setSlot_nonce (s : State) (k : Nat) (p : Poly) : (s.setSlot k p).nonce = s.nonce := rfl
@[simp] theorem State.setSlot_consumed (s : State) (k : Nat) (p : Poly) : (s.setSlot k p).consumed = s.consumed := rfl
@[simp] theorem State.setSlot_hsrc (s : State) (k : Nat) (p : Poly) : (s.setSlot k p).hsrc = s.hsrc := rfl
@[simp] theorem State.setSlot_hlen (s : State) (k : Nat) (p : Poly) : (s.setSlot k p).hlen = s.hlen := rfl
@[simp] theorem State.setSlot_hdst (s : State) (k : Nat) (p : Poly) : (s.setSlot k p).hdst = s.hdst := rfl
@[simp] theorem State.setSlot_holen (s : State) (k : Nat) (p : Poly) : (s.setSlot k p).holen = s.holen := rfl
@[simp] theorem State.setSlot_slots (s : State) (k : Nat) (p : Poly) : (s.setSlot k p).slots = s.slots.setIfInBounds k p := rfl
@[simp] theorem State.setSlot_bram (s : State) (k : Nat) (p : Poly) : (s.setSlot k p).bram = s.bram := rfl
@[simp] theorem State.setSlot_inputs (s : State) (k : Nat) (p : Poly) : (s.setSlot k p).inputs = s.inputs := rfl
@[simp] theorem State.setSlot_rdata (s : State) (k : Nat) (p : Poly) : (s.setSlot k p).rdata = s.rdata := rfl
@[simp] theorem State.setSlot_busyLeft (s : State) (k : Nat) (p : Poly) : (s.setSlot k p).busyLeft = s.busyLeft := rfl
@[simp] theorem State.setSlot_chunks (s : State) (k : Nat) (p : Poly) : (s.setSlot k p).chunks = s.chunks := rfl
@[simp] theorem State.setSlot_accepts (s : State) (k : Nat) (p : Poly) : (s.setSlot k p).accepts = s.accepts := rfl

/-! ## setVec -/

@[simp] theorem State.setVec_ie (s : State) (b : Nat) (v : Fin 4 → Poly) : (s.setVec b v).ie = s.ie := by simp only [State.setVec, State.setSlot_ie]
@[simp] theorem State.setVec_status (s : State) (b : Nat) (v : Fin 4 → Poly) : (s.setVec b v).status = s.status := by simp only [State.setVec, State.setSlot_status]
@[simp] theorem State.setVec_cmd (s : State) (b : Nat) (v : Fin 4 → Poly) : (s.setVec b v).cmd = s.cmd := by simp only [State.setVec, State.setSlot_cmd]
@[simp] theorem State.setVec_opa (s : State) (b : Nat) (v : Fin 4 → Poly) : (s.setVec b v).opa = s.opa := by simp only [State.setVec, State.setSlot_opa]
@[simp] theorem State.setVec_opb (s : State) (b : Nat) (v : Fin 4 → Poly) : (s.setVec b v).opb = s.opb := by simp only [State.setVec, State.setSlot_opb]
@[simp] theorem State.setVec_opx (s : State) (b : Nat) (v : Fin 4 → Poly) : (s.setVec b v).opx = s.opx := by simp only [State.setVec, State.setSlot_opx]
@[simp] theorem State.setVec_res (s : State) (b : Nat) (v : Fin 4 → Poly) : (s.setVec b v).res = s.res := by simp only [State.setVec, State.setSlot_res]
@[simp] theorem State.setVec_nonce (s : State) (b : Nat) (v : Fin 4 → Poly) : (s.setVec b v).nonce = s.nonce := by simp only [State.setVec, State.setSlot_nonce]
@[simp] theorem State.setVec_consumed (s : State) (b : Nat) (v : Fin 4 → Poly) : (s.setVec b v).consumed = s.consumed := by simp only [State.setVec, State.setSlot_consumed]
@[simp] theorem State.setVec_hsrc (s : State) (b : Nat) (v : Fin 4 → Poly) : (s.setVec b v).hsrc = s.hsrc := by simp only [State.setVec, State.setSlot_hsrc]
@[simp] theorem State.setVec_hlen (s : State) (b : Nat) (v : Fin 4 → Poly) : (s.setVec b v).hlen = s.hlen := by simp only [State.setVec, State.setSlot_hlen]
@[simp] theorem State.setVec_hdst (s : State) (b : Nat) (v : Fin 4 → Poly) : (s.setVec b v).hdst = s.hdst := by simp only [State.setVec, State.setSlot_hdst]
@[simp] theorem State.setVec_holen (s : State) (b : Nat) (v : Fin 4 → Poly) : (s.setVec b v).holen = s.holen := by simp only [State.setVec, State.setSlot_holen]
@[simp] theorem State.setVec_bram (s : State) (b : Nat) (v : Fin 4 → Poly) : (s.setVec b v).bram = s.bram := by simp only [State.setVec, State.setSlot_bram]
@[simp] theorem State.setVec_inputs (s : State) (b : Nat) (v : Fin 4 → Poly) : (s.setVec b v).inputs = s.inputs := by simp only [State.setVec, State.setSlot_inputs]
@[simp] theorem State.setVec_rdata (s : State) (b : Nat) (v : Fin 4 → Poly) : (s.setVec b v).rdata = s.rdata := by simp only [State.setVec, State.setSlot_rdata]
@[simp] theorem State.setVec_busyLeft (s : State) (b : Nat) (v : Fin 4 → Poly) : (s.setVec b v).busyLeft = s.busyLeft := by simp only [State.setVec, State.setSlot_busyLeft]
@[simp] theorem State.setVec_chunks (s : State) (b : Nat) (v : Fin 4 → Poly) : (s.setVec b v).chunks = s.chunks := by simp only [State.setVec, State.setSlot_chunks]
@[simp] theorem State.setVec_accepts (s : State) (b : Nat) (v : Fin 4 → Poly) : (s.setVec b v).accepts = s.accepts := by simp only [State.setVec, State.setSlot_accepts]

/-! ## setMailbox -/

@[simp] theorem State.setMailbox_ie (s : State) (r : Nat × Nat) (B : List Byte) : (s.setMailbox r B).ie = s.ie := rfl
@[simp] theorem State.setMailbox_status (s : State) (r : Nat × Nat) (B : List Byte) : (s.setMailbox r B).status = s.status := rfl
@[simp] theorem State.setMailbox_cmd (s : State) (r : Nat × Nat) (B : List Byte) : (s.setMailbox r B).cmd = s.cmd := rfl
@[simp] theorem State.setMailbox_opa (s : State) (r : Nat × Nat) (B : List Byte) : (s.setMailbox r B).opa = s.opa := rfl
@[simp] theorem State.setMailbox_opb (s : State) (r : Nat × Nat) (B : List Byte) : (s.setMailbox r B).opb = s.opb := rfl
@[simp] theorem State.setMailbox_opx (s : State) (r : Nat × Nat) (B : List Byte) : (s.setMailbox r B).opx = s.opx := rfl
@[simp] theorem State.setMailbox_res (s : State) (r : Nat × Nat) (B : List Byte) : (s.setMailbox r B).res = s.res := rfl
@[simp] theorem State.setMailbox_nonce (s : State) (r : Nat × Nat) (B : List Byte) : (s.setMailbox r B).nonce = s.nonce := rfl
@[simp] theorem State.setMailbox_consumed (s : State) (r : Nat × Nat) (B : List Byte) : (s.setMailbox r B).consumed = s.consumed := rfl
@[simp] theorem State.setMailbox_hsrc (s : State) (r : Nat × Nat) (B : List Byte) : (s.setMailbox r B).hsrc = s.hsrc := rfl
@[simp] theorem State.setMailbox_hlen (s : State) (r : Nat × Nat) (B : List Byte) : (s.setMailbox r B).hlen = s.hlen := rfl
@[simp] theorem State.setMailbox_hdst (s : State) (r : Nat × Nat) (B : List Byte) : (s.setMailbox r B).hdst = s.hdst := rfl
@[simp] theorem State.setMailbox_holen (s : State) (r : Nat × Nat) (B : List Byte) : (s.setMailbox r B).holen = s.holen := rfl
@[simp] theorem State.setMailbox_slots (s : State) (r : Nat × Nat) (B : List Byte) : (s.setMailbox r B).slots = s.slots := rfl
@[simp] theorem State.setMailbox_bram (s : State) (r : Nat × Nat) (B : List Byte) : (s.setMailbox r B).bram = s.bram.writeBytes r.1 B := rfl
@[simp] theorem State.setMailbox_inputs (s : State) (r : Nat × Nat) (B : List Byte) : (s.setMailbox r B).inputs = s.inputs := rfl
@[simp] theorem State.setMailbox_rdata (s : State) (r : Nat × Nat) (B : List Byte) : (s.setMailbox r B).rdata = s.rdata := rfl
@[simp] theorem State.setMailbox_busyLeft (s : State) (r : Nat × Nat) (B : List Byte) : (s.setMailbox r B).busyLeft = s.busyLeft := rfl
@[simp] theorem State.setMailbox_chunks (s : State) (r : Nat × Nat) (B : List Byte) : (s.setMailbox r B).chunks = s.chunks := rfl
@[simp] theorem State.setMailbox_accepts (s : State) (r : Nat × Nat) (B : List Byte) : (s.setMailbox r B).accepts = s.accepts := rfl

/-! ## stall -/

@[simp] theorem State.stall_ie (s : State) : s.stall.ie = s.ie := rfl
@[simp] theorem State.stall_status (s : State) : s.stall.status = s.status := rfl
@[simp] theorem State.stall_cmd (s : State) : s.stall.cmd = s.cmd := rfl
@[simp] theorem State.stall_opa (s : State) : s.stall.opa = s.opa := rfl
@[simp] theorem State.stall_opb (s : State) : s.stall.opb = s.opb := rfl
@[simp] theorem State.stall_opx (s : State) : s.stall.opx = s.opx := rfl
@[simp] theorem State.stall_res (s : State) : s.stall.res = s.res := rfl
@[simp] theorem State.stall_nonce (s : State) : s.stall.nonce = s.nonce := rfl
@[simp] theorem State.stall_consumed (s : State) : s.stall.consumed = s.consumed := rfl
@[simp] theorem State.stall_hsrc (s : State) : s.stall.hsrc = s.hsrc := rfl
@[simp] theorem State.stall_hlen (s : State) : s.stall.hlen = s.hlen := rfl
@[simp] theorem State.stall_hdst (s : State) : s.stall.hdst = s.hdst := rfl
@[simp] theorem State.stall_holen (s : State) : s.stall.holen = s.holen := rfl
@[simp] theorem State.stall_slots (s : State) : s.stall.slots = s.slots := rfl
@[simp] theorem State.stall_bram (s : State) : s.stall.bram = s.bram := rfl
@[simp] theorem State.stall_inputs (s : State) : s.stall.inputs = s.inputs := rfl
@[simp] theorem State.stall_rdata (s : State) : s.stall.rdata = s.rdata := rfl
@[simp] theorem State.stall_busyLeft (s : State) : s.stall.busyLeft = 1 := rfl
@[simp] theorem State.stall_chunks (s : State) : s.stall.chunks = s.chunks + 1 := rfl
@[simp] theorem State.stall_accepts (s : State) : s.stall.accepts = s.accepts := rfl

/-! ## refuse -/

@[simp] theorem State.refuse_ie (s : State) : s.refuse.ie = s.ie := rfl
@[simp] theorem State.refuse_status (s : State) : s.refuse.status = s.status.flagAccerr := rfl
@[simp] theorem State.refuse_cmd (s : State) : s.refuse.cmd = s.cmd := rfl
@[simp] theorem State.refuse_opa (s : State) : s.refuse.opa = s.opa := rfl
@[simp] theorem State.refuse_opb (s : State) : s.refuse.opb = s.opb := rfl
@[simp] theorem State.refuse_opx (s : State) : s.refuse.opx = s.opx := rfl
@[simp] theorem State.refuse_res (s : State) : s.refuse.res = s.res := rfl
@[simp] theorem State.refuse_nonce (s : State) : s.refuse.nonce = s.nonce := rfl
@[simp] theorem State.refuse_consumed (s : State) : s.refuse.consumed = s.consumed := rfl
@[simp] theorem State.refuse_hsrc (s : State) : s.refuse.hsrc = s.hsrc := rfl
@[simp] theorem State.refuse_hlen (s : State) : s.refuse.hlen = s.hlen := rfl
@[simp] theorem State.refuse_hdst (s : State) : s.refuse.hdst = s.hdst := rfl
@[simp] theorem State.refuse_holen (s : State) : s.refuse.holen = s.holen := rfl
@[simp] theorem State.refuse_slots (s : State) : s.refuse.slots = s.slots := rfl
@[simp] theorem State.refuse_bram (s : State) : s.refuse.bram = s.bram := rfl
@[simp] theorem State.refuse_inputs (s : State) : s.refuse.inputs = s.inputs := rfl
@[simp] theorem State.refuse_rdata (s : State) : s.refuse.rdata = s.rdata := rfl
@[simp] theorem State.refuse_busyLeft (s : State) : s.refuse.busyLeft = s.busyLeft := rfl
@[simp] theorem State.refuse_chunks (s : State) : s.refuse.chunks = s.chunks := rfl
@[simp] theorem State.refuse_accepts (s : State) : s.refuse.accepts = s.accepts := rfl

/-! ## setCoef -/

@[simp] theorem State.setCoef_ie (s : State) (k i : Nat) (c : Coef) : (s.setCoef k i c).ie = s.ie := by simp only [State.setCoef, State.setSlot_ie]
@[simp] theorem State.setCoef_status (s : State) (k i : Nat) (c : Coef) : (s.setCoef k i c).status = s.status := by simp only [State.setCoef, State.setSlot_status]
@[simp] theorem State.setCoef_cmd (s : State) (k i : Nat) (c : Coef) : (s.setCoef k i c).cmd = s.cmd := by simp only [State.setCoef, State.setSlot_cmd]
@[simp] theorem State.setCoef_opa (s : State) (k i : Nat) (c : Coef) : (s.setCoef k i c).opa = s.opa := by simp only [State.setCoef, State.setSlot_opa]
@[simp] theorem State.setCoef_opb (s : State) (k i : Nat) (c : Coef) : (s.setCoef k i c).opb = s.opb := by simp only [State.setCoef, State.setSlot_opb]
@[simp] theorem State.setCoef_opx (s : State) (k i : Nat) (c : Coef) : (s.setCoef k i c).opx = s.opx := by simp only [State.setCoef, State.setSlot_opx]
@[simp] theorem State.setCoef_res (s : State) (k i : Nat) (c : Coef) : (s.setCoef k i c).res = s.res := by simp only [State.setCoef, State.setSlot_res]
@[simp] theorem State.setCoef_nonce (s : State) (k i : Nat) (c : Coef) : (s.setCoef k i c).nonce = s.nonce := by simp only [State.setCoef, State.setSlot_nonce]
@[simp] theorem State.setCoef_consumed (s : State) (k i : Nat) (c : Coef) : (s.setCoef k i c).consumed = s.consumed := by simp only [State.setCoef, State.setSlot_consumed]
@[simp] theorem State.setCoef_hsrc (s : State) (k i : Nat) (c : Coef) : (s.setCoef k i c).hsrc = s.hsrc := by simp only [State.setCoef, State.setSlot_hsrc]
@[simp] theorem State.setCoef_hlen (s : State) (k i : Nat) (c : Coef) : (s.setCoef k i c).hlen = s.hlen := by simp only [State.setCoef, State.setSlot_hlen]
@[simp] theorem State.setCoef_hdst (s : State) (k i : Nat) (c : Coef) : (s.setCoef k i c).hdst = s.hdst := by simp only [State.setCoef, State.setSlot_hdst]
@[simp] theorem State.setCoef_holen (s : State) (k i : Nat) (c : Coef) : (s.setCoef k i c).holen = s.holen := by simp only [State.setCoef, State.setSlot_holen]
@[simp] theorem State.setCoef_bram (s : State) (k i : Nat) (c : Coef) : (s.setCoef k i c).bram = s.bram := by simp only [State.setCoef, State.setSlot_bram]
@[simp] theorem State.setCoef_inputs (s : State) (k i : Nat) (c : Coef) : (s.setCoef k i c).inputs = s.inputs := by simp only [State.setCoef, State.setSlot_inputs]
@[simp] theorem State.setCoef_rdata (s : State) (k i : Nat) (c : Coef) : (s.setCoef k i c).rdata = s.rdata := by simp only [State.setCoef, State.setSlot_rdata]
@[simp] theorem State.setCoef_busyLeft (s : State) (k i : Nat) (c : Coef) : (s.setCoef k i c).busyLeft = s.busyLeft := by simp only [State.setCoef, State.setSlot_busyLeft]
@[simp] theorem State.setCoef_chunks (s : State) (k i : Nat) (c : Coef) : (s.setCoef k i c).chunks = s.chunks := by simp only [State.setCoef, State.setSlot_chunks]
@[simp] theorem State.setCoef_accepts (s : State) (k i : Nat) (c : Coef) : (s.setCoef k i c).accepts = s.accepts := by simp only [State.setCoef, State.setSlot_accepts]

/-! ## wipe -/

@[simp] theorem wipe_ie (extra : List (Nat × Nat)) (s : State) : (wipe extra s).ie = s.ie := by simp only [wipe, State.setBram_ie, State.setSlots_ie]
@[simp] theorem wipe_status (extra : List (Nat × Nat)) (s : State) : (wipe extra s).status = s.status := by simp only [wipe, State.setBram_status, State.setSlots_status]
@[simp] theorem wipe_cmd (extra : List (Nat × Nat)) (s : State) : (wipe extra s).cmd = s.cmd := by simp only [wipe, State.setBram_cmd, State.setSlots_cmd]
@[simp] theorem wipe_opa (extra : List (Nat × Nat)) (s : State) : (wipe extra s).opa = s.opa := by simp only [wipe, State.setBram_opa, State.setSlots_opa]
@[simp] theorem wipe_opb (extra : List (Nat × Nat)) (s : State) : (wipe extra s).opb = s.opb := by simp only [wipe, State.setBram_opb, State.setSlots_opb]
@[simp] theorem wipe_opx (extra : List (Nat × Nat)) (s : State) : (wipe extra s).opx = s.opx := by simp only [wipe, State.setBram_opx, State.setSlots_opx]
@[simp] theorem wipe_res (extra : List (Nat × Nat)) (s : State) : (wipe extra s).res = s.res := by simp only [wipe, State.setBram_res, State.setSlots_res]
@[simp] theorem wipe_nonce (extra : List (Nat × Nat)) (s : State) : (wipe extra s).nonce = s.nonce := by simp only [wipe, State.setBram_nonce, State.setSlots_nonce]
@[simp] theorem wipe_consumed (extra : List (Nat × Nat)) (s : State) : (wipe extra s).consumed = s.consumed := by simp only [wipe, State.setBram_consumed, State.setSlots_consumed]
@[simp] theorem wipe_hsrc (extra : List (Nat × Nat)) (s : State) : (wipe extra s).hsrc = s.hsrc := by simp only [wipe, State.setBram_hsrc, State.setSlots_hsrc]
@[simp] theorem wipe_hlen (extra : List (Nat × Nat)) (s : State) : (wipe extra s).hlen = s.hlen := by simp only [wipe, State.setBram_hlen, State.setSlots_hlen]
@[simp] theorem wipe_hdst (extra : List (Nat × Nat)) (s : State) : (wipe extra s).hdst = s.hdst := by simp only [wipe, State.setBram_hdst, State.setSlots_hdst]
@[simp] theorem wipe_holen (extra : List (Nat × Nat)) (s : State) : (wipe extra s).holen = s.holen := by simp only [wipe, State.setBram_holen, State.setSlots_holen]
@[simp] theorem wipe_slots (extra : List (Nat × Nat)) (s : State) : (wipe extra s).slots = zeroSlots := by simp only [wipe, State.setBram_slots, State.setSlots_slots]
@[simp] theorem wipe_bram (extra : List (Nat × Nat)) (s : State) : (wipe extra s).bram = s.bram.zeroRegions (Mailbox.cp :: Mailbox.scr :: extra) := by simp only [wipe, State.setBram_bram]
@[simp] theorem wipe_inputs (extra : List (Nat × Nat)) (s : State) : (wipe extra s).inputs = s.inputs := by simp only [wipe, State.setBram_inputs, State.setSlots_inputs]
@[simp] theorem wipe_rdata (extra : List (Nat × Nat)) (s : State) : (wipe extra s).rdata = s.rdata := by simp only [wipe, State.setBram_rdata, State.setSlots_rdata]
@[simp] theorem wipe_busyLeft (extra : List (Nat × Nat)) (s : State) : (wipe extra s).busyLeft = s.busyLeft := by simp only [wipe, State.setBram_busyLeft, State.setSlots_busyLeft]
@[simp] theorem wipe_chunks (extra : List (Nat × Nat)) (s : State) : (wipe extra s).chunks = s.chunks := by simp only [wipe, State.setBram_chunks, State.setSlots_chunks]
@[simp] theorem wipe_accepts (extra : List (Nat × Nat)) (s : State) : (wipe extra s).accepts = s.accepts := by simp only [wipe, State.setBram_accepts, State.setSlots_accepts]

/-! ## acceptCommand -/

@[simp] theorem acceptCommand_ie (w : Word) (s : State) : (acceptCommand w s).ie = s.ie := rfl
@[simp] theorem acceptCommand_status (w : Word) (s : State) : (acceptCommand w s).status = s.status.accept := rfl
@[simp] theorem acceptCommand_cmd (w : Word) (s : State) : (acceptCommand w s).cmd = w := rfl
@[simp] theorem acceptCommand_opa (w : Word) (s : State) : (acceptCommand w s).opa = s.opa := rfl
@[simp] theorem acceptCommand_opb (w : Word) (s : State) : (acceptCommand w s).opb = s.opb := rfl
@[simp] theorem acceptCommand_opx (w : Word) (s : State) : (acceptCommand w s).opx = s.opx := rfl
@[simp] theorem acceptCommand_res (w : Word) (s : State) : (acceptCommand w s).res = s.res := rfl
@[simp] theorem acceptCommand_nonce (w : Word) (s : State) : (acceptCommand w s).nonce = s.nonce := rfl
@[simp] theorem acceptCommand_consumed (w : Word) (s : State) : (acceptCommand w s).consumed = s.consumed := rfl
@[simp] theorem acceptCommand_hsrc (w : Word) (s : State) : (acceptCommand w s).hsrc = s.hsrc := rfl
@[simp] theorem acceptCommand_hlen (w : Word) (s : State) : (acceptCommand w s).hlen = s.hlen := rfl
@[simp] theorem acceptCommand_hdst (w : Word) (s : State) : (acceptCommand w s).hdst = s.hdst := rfl
@[simp] theorem acceptCommand_holen (w : Word) (s : State) : (acceptCommand w s).holen = s.holen := rfl
@[simp] theorem acceptCommand_slots (w : Word) (s : State) : (acceptCommand w s).slots = s.slots := rfl
@[simp] theorem acceptCommand_bram (w : Word) (s : State) : (acceptCommand w s).bram = s.bram := rfl
@[simp] theorem acceptCommand_inputs (w : Word) (s : State) : (acceptCommand w s).inputs = s.inputs := rfl
@[simp] theorem acceptCommand_rdata (w : Word) (s : State) : (acceptCommand w s).rdata = s.rdata := rfl
@[simp] theorem acceptCommand_busyLeft (w : Word) (s : State) : (acceptCommand w s).busyLeft = Config.busySteps s.accepts := rfl
@[simp] theorem acceptCommand_chunks (w : Word) (s : State) : (acceptCommand w s).chunks = Config.firstChunks s.accepts := rfl
@[simp] theorem acceptCommand_accepts (w : Word) (s : State) : (acceptCommand w s).accepts = s.accepts + 1 := rfl

/-! ## resetCore -/

@[simp] theorem resetCore_ie (s : State) : (resetCore s).ie = State.reset.ie := rfl
@[simp] theorem resetCore_status (s : State) : (resetCore s).status = State.reset.status := rfl
@[simp] theorem resetCore_cmd (s : State) : (resetCore s).cmd = State.reset.cmd := rfl
@[simp] theorem resetCore_opa (s : State) : (resetCore s).opa = State.reset.opa := rfl
@[simp] theorem resetCore_opb (s : State) : (resetCore s).opb = State.reset.opb := rfl
@[simp] theorem resetCore_opx (s : State) : (resetCore s).opx = State.reset.opx := rfl
@[simp] theorem resetCore_res (s : State) : (resetCore s).res = State.reset.res := rfl
@[simp] theorem resetCore_nonce (s : State) : (resetCore s).nonce = State.reset.nonce := rfl
@[simp] theorem resetCore_consumed (s : State) : (resetCore s).consumed = State.reset.consumed := rfl
@[simp] theorem resetCore_hsrc (s : State) : (resetCore s).hsrc = State.reset.hsrc := rfl
@[simp] theorem resetCore_hlen (s : State) : (resetCore s).hlen = State.reset.hlen := rfl
@[simp] theorem resetCore_hdst (s : State) : (resetCore s).hdst = State.reset.hdst := rfl
@[simp] theorem resetCore_holen (s : State) : (resetCore s).holen = State.reset.holen := rfl
@[simp] theorem resetCore_slots (s : State) : (resetCore s).slots = State.reset.slots := rfl
@[simp] theorem resetCore_bram (s : State) : (resetCore s).bram = State.reset.bram := rfl
@[simp] theorem resetCore_inputs (s : State) : (resetCore s).inputs = s.inputs := rfl
@[simp] theorem resetCore_rdata (s : State) : (resetCore s).rdata = s.rdata := rfl
@[simp] theorem resetCore_busyLeft (s : State) : (resetCore s).busyLeft = State.reset.busyLeft := rfl
@[simp] theorem resetCore_chunks (s : State) : (resetCore s).chunks = State.reset.chunks := rfl
@[simp] theorem resetCore_accepts (s : State) : (resetCore s).accepts = s.accepts := rfl

/-! ## The flags -/

@[simp] theorem Status.accept_busy (f : Status) : (Status.accept f).busy = true := rfl
@[simp] theorem Status.accept_done (f : Status) : (Status.accept f).done = false := rfl
@[simp] theorem Status.accept_err (f : Status) : (Status.accept f).err = false := rfl
@[simp] theorem Status.accept_errCode (f : Status) : (Status.accept f).errCode = 0 := rfl
@[simp] theorem Status.accept_accerr (f : Status) : (Status.accept f).accerr = f.accerr := rfl
@[simp] theorem Status.accept_overrun (f : Status) : (Status.accept f).overrun = f.overrun := rfl
@[simp] theorem Status.accept_noncanon (f : Status) : (Status.accept f).noncanon = f.noncanon := rfl
@[simp] theorem Status.succeed_busy (f : Status) : (Status.succeed f).busy = false := rfl
@[simp] theorem Status.succeed_done (f : Status) : (Status.succeed f).done = true := rfl
@[simp] theorem Status.succeed_err (f : Status) : (Status.succeed f).err = false := rfl
@[simp] theorem Status.succeed_errCode (f : Status) : (Status.succeed f).errCode = 0 := rfl
@[simp] theorem Status.succeed_accerr (f : Status) : (Status.succeed f).accerr = f.accerr := rfl
@[simp] theorem Status.succeed_overrun (f : Status) : (Status.succeed f).overrun = f.overrun := rfl
@[simp] theorem Status.succeed_noncanon (f : Status) : (Status.succeed f).noncanon = f.noncanon := rfl
@[simp] theorem Status.fail_busy (e : CmdError) (f : Status) : (Status.fail e f).busy = false := rfl
@[simp] theorem Status.fail_done (e : CmdError) (f : Status) : (Status.fail e f).done = true := rfl
@[simp] theorem Status.fail_err (e : CmdError) (f : Status) : (Status.fail e f).err = true := rfl
@[simp] theorem Status.fail_errCode (e : CmdError) (f : Status) : (Status.fail e f).errCode = e.code := rfl
@[simp] theorem Status.fail_accerr (e : CmdError) (f : Status) : (Status.fail e f).accerr = f.accerr := rfl
@[simp] theorem Status.fail_overrun (e : CmdError) (f : Status) : (Status.fail e f).overrun = f.overrun := rfl
@[simp] theorem Status.fail_noncanon (e : CmdError) (f : Status) : (Status.fail e f).noncanon = f.noncanon := rfl
@[simp] theorem Status.flagAccerr_busy (f : Status) : (Status.flagAccerr f).busy = f.busy := rfl
@[simp] theorem Status.flagAccerr_done (f : Status) : (Status.flagAccerr f).done = f.done := rfl
@[simp] theorem Status.flagAccerr_err (f : Status) : (Status.flagAccerr f).err = f.err := rfl
@[simp] theorem Status.flagAccerr_errCode (f : Status) : (Status.flagAccerr f).errCode = f.errCode := rfl
@[simp] theorem Status.flagAccerr_accerr (f : Status) : (Status.flagAccerr f).accerr = true := rfl
@[simp] theorem Status.flagAccerr_overrun (f : Status) : (Status.flagAccerr f).overrun = f.overrun := rfl
@[simp] theorem Status.flagAccerr_noncanon (f : Status) : (Status.flagAccerr f).noncanon = f.noncanon := rfl
@[simp] theorem Status.flagOverrun_busy (f : Status) : (Status.flagOverrun f).busy = f.busy := rfl
@[simp] theorem Status.flagOverrun_done (f : Status) : (Status.flagOverrun f).done = f.done := rfl
@[simp] theorem Status.flagOverrun_err (f : Status) : (Status.flagOverrun f).err = f.err := rfl
@[simp] theorem Status.flagOverrun_errCode (f : Status) : (Status.flagOverrun f).errCode = f.errCode := rfl
@[simp] theorem Status.flagOverrun_accerr (f : Status) : (Status.flagOverrun f).accerr = f.accerr := rfl
@[simp] theorem Status.flagOverrun_overrun (f : Status) : (Status.flagOverrun f).overrun = true := rfl
@[simp] theorem Status.flagOverrun_noncanon (f : Status) : (Status.flagOverrun f).noncanon = f.noncanon := rfl
@[simp] theorem Status.flagNoncanon_busy (nc : Bool) (f : Status) : (Status.flagNoncanon nc f).busy = f.busy := rfl
@[simp] theorem Status.flagNoncanon_done (nc : Bool) (f : Status) : (Status.flagNoncanon nc f).done = f.done := rfl
@[simp] theorem Status.flagNoncanon_err (nc : Bool) (f : Status) : (Status.flagNoncanon nc f).err = f.err := rfl
@[simp] theorem Status.flagNoncanon_errCode (nc : Bool) (f : Status) : (Status.flagNoncanon nc f).errCode = f.errCode := rfl
@[simp] theorem Status.flagNoncanon_accerr (nc : Bool) (f : Status) : (Status.flagNoncanon nc f).accerr = f.accerr := rfl
@[simp] theorem Status.flagNoncanon_overrun (nc : Bool) (f : Status) : (Status.flagNoncanon nc f).overrun = f.overrun := rfl
@[simp] theorem Status.flagNoncanon_noncanon (nc : Bool) (f : Status) : (Status.flagNoncanon nc f).noncanon = (f.noncanon || nc) := rfl

end Sys2Proof.Machine
end

