-- ==== Sys2Proof/Laws/Arith.lean ====
section
/-! SUPPORT. The modular datapath computes arithmetic mod q: one lemma per operation. -/

namespace Sys2Proof.Machine

/-- Storing an integer in [0, q-1] keeps its value. -/
theorem narrow_val {r : Int} (h0 : 0 ≤ r) (h1 : r < 3329) : ((narrow r).val : Int) = r := by
  obtain ⟨n, rfl⟩ := Int.eq_ofNat_of_zero_le h0
  simp only [narrow, Fin.val_ofNat, Int.toNat_natCast]
  rw [Nat.mod_eq_of_lt (by omega)]

theorem narrow_natCast (n : Nat) : (narrow (n : Int)).val = n % 3329 := by
  simp [narrow]

/-- Barrett reduction of a legal input is its residue mod q, in [0, q-1]. -/
theorem barrett_eq_emod {x : Int} (h0 : -67108864 ≤ x) (h1 : x ≤ 67108864) : barrett x = x % 3329 := by
  simp only [barrett, Int.shiftRight_eq_div_pow]
  split <;> split <;> omega

theorem modAdd_eq_add (a b : Coef) : modAdd a b = a + b := by
  apply Fin.ext
  rw [Fin.val_add]
  have ha := a.isLt
  have hb := b.isLt
  simp only [modAdd]
  have h : (0 : Int) ≤ (if (a.val : Int) + b.val ≥ 3329 then (a.val : Int) + b.val - 3329 else (a.val : Int) + b.val) ∧
      (if (a.val : Int) + b.val ≥ 3329 then (a.val : Int) + b.val - 3329 else (a.val : Int) + b.val) < 3329 := by
    split <;> omega
  have := narrow_val h.1 h.2
  split at this <;> split <;> omega

theorem modSub_eq_sub (a b : Coef) : modSub a b = a - b := by
  apply Fin.ext
  rw [Fin.val_sub]
  have ha := a.isLt
  have hb := b.isLt
  simp only [modSub]
  have h : (0 : Int) ≤ (if (a.val : Int) - b.val < 0 then (a.val : Int) - b.val + 3329 else (a.val : Int) - b.val) ∧
      (if (a.val : Int) - b.val < 0 then (a.val : Int) - b.val + 3329 else (a.val : Int) - b.val) < 3329 := by
    split <;> omega
  have := narrow_val h.1 h.2
  split at this <;> split <;> omega

theorem modMul_eq_mul (a b : Coef) : modMul a b = a * b := by
  have ha := a.isLt
  have hb := b.isLt
  have hab : a.val * b.val ≤ 3328 * 3328 := Nat.mul_le_mul (by omega) (by omega)
  apply Fin.ext
  rw [Fin.val_mul]
  have hx : ((a.val : Int) * (b.val : Int)) = ((a.val * b.val : Nat) : Int) := by push_cast; rfl
  simp only [modMul, hx]
  rw [barrett_eq_emod (by omega) (by omega)]
  rw [show ((a.val * b.val : Nat) : Int) % 3329 = ((a.val * b.val % 3329 : Nat) : Int) by push_cast; rfl, narrow_natCast]
  omega

end Sys2Proof.Machine
end

