-- ==== Sys2Proof/Laws/Bus.lean ====
section
/-! SUPPORT. The host bus: everything an access can do, said once. -/

namespace Sys2Proof.Machine

/-- Two flags set one after the other are the two flags set (R115, R116). -/
theorem Status.flagAccerr_flagOverrun (f : Status) : f.flagOverrun.flagAccerr = { f with accerr := true, overrun := true } := rfl

/-- A partial-strobe register write sets ACCERR, and OVERRUN beside it on CMD while busy; it does nothing else (R205, R116). -/
theorem partialRegWrite_cases (r : Reg) (s : State) :
    partialRegWrite r s = s.refuse ∨
      (r = .cmd ∧ s.status.busy = true ∧ partialRegWrite r s = (s.setStatus s.status.flagOverrun).refuse) := by
  cases r <;> simp only [partialRegWrite, true_or]
  split <;> simp_all

/-- Everything a host read can do to the state: nothing, or ACCERR (R204, R206, R214). -/
theorem hostRead_cases (addr : HostAddr) (s : State) : (hostRead addr s).2 = s ∨ hostRead addr s = (0, s.refuse) := by
  unfold hostRead
  split
  · exact .inr rfl
  · split
    · exact .inl rfl
    · exact .inl rfl
    · split
      · exact .inr rfl
      · exact .inl rfl
    · split
      · exact .inr rfl
      · exact .inl rfl
    · exact .inl rfl
    · exact .inl rfl

/-- Everything a host write can do: nothing, a refusal, the two flags of a partial CMD write while busy, a full-word register
write, one coefficient below q, or byte lanes of the byte RAM (R200-R214, R220, R230). -/
theorem hostWrite_cases (addr : HostAddr) (data : Word) (wstrb : BitVec 4) (s : State) :
    hostWrite addr data wstrb s = s ∨ hostWrite addr data wstrb s = s.refuse ∨
      (regionOf addr = .reg .cmd ∧ s.status.busy = true ∧
        hostWrite addr data wstrb s = (s.setStatus s.status.flagOverrun).refuse) ∨
      (∃ r, regionOf addr = .reg r ∧ wstrb = 0xF ∧ hostWrite addr data wstrb s = writeReg r data s) ∨
      (∃ k i, regionOf addr = .slot k i ∧ s.status.busy = false ∧ wstrb = 0xF ∧ data.toNat < 3329 ∧
        hostWrite addr data wstrb s = s.setCoef k i (narrow data.toNat)) ∨
      ∃ k, regionOf addr = .bram k ∧ s.status.busy = false ∧
        hostWrite addr data wstrb s = s.setBram (writeLanes s.bram k data wstrb) := by
  unfold hostWrite
  split
  · exact .inr (.inl rfl)
  split
  · exact .inl rfl
  split
  next r hr =>
    split
    next hw => exact .inr (.inr (.inr (.inl ⟨r, hr, hw, rfl⟩)))
    next =>
      obtain h | ⟨rfl, hb, h⟩ := partialRegWrite_cases r s
      · exact .inr (.inl h)
      · exact .inr (.inr (.inl ⟨hr, hb, h⟩))
  next => exact .inl rfl
  next k i hr =>
    split
    · exact .inr (.inl rfl)
    next hn =>
      simp only [not_or, Bool.not_eq_true, not_not, not_le] at hn
      exact .inr (.inr (.inr (.inr (.inl ⟨k, i, hr, hn.1, hn.2.1, hn.2.2, rfl⟩))))
  next k hr =>
    split
    · exact .inr (.inl rfl)
    next hn => exact .inr (.inr (.inr (.inr (.inr ⟨k, hr, by simpa using hn, rfl⟩))))
  next => exact .inr (.inl rfl)
  next => exact .inl rfl

end Sys2Proof.Machine
end

