-- ==== Sys2Proof/Laws/Poly.lean ====
section
/-! SUPPORT. Polynomials coefficient by coefficient, and the slot RAM slot by slot. -/

namespace Sys2Proof.Machine

@[simp] theorem Poly.get_ofFn (f : Nat → Coef) {i : Nat} (h : i < 256) : (Poly.ofFn f).get i = f i := by
  simp [Poly.get, Poly.ofFn, List.getD, h]

/-- Two Polys with the same 256 coefficients are equal. -/
theorem Poly.ext_get {p q : Poly} (h : ∀ i, i < 256 → p.get i = q.get i) : p = q := by
  apply Vector.ext
  intro i hi
  have := h i hi
  simpa [Poly.get, List.getD, hi] using this

@[simp] theorem Poly.ofFn_get (p : Poly) : (Poly.ofFn fun i => p.get i) = p :=
  Poly.ext_get fun i hi => by simp [hi]

theorem Poly.ofFn_congr {f g : Nat → Coef} (h : ∀ i, i < 256 → f i = g i) : Poly.ofFn f = Poly.ofFn g :=
  Poly.ext_get fun i hi => by simp [hi, h i hi]

@[simp] theorem Poly.get_zero {i : Nat} (h : i < 256) : Poly.zero.get i = 0 := by simp [Poly.zero, h]

/-- A slot read after a slot write. -/
theorem State.slot_setSlot (s : State) {k : Nat} (hk : k < 64) (p : Poly) (n : Nat) :
    (s.setSlot k p).slot n = if n = k then p else s.slot n := by
  by_cases h : n = k
  · subst h
    simp [State.slot, State.setSlot, State.setSlots, List.getD, hk]
  · simp [State.slot, State.setSlot, State.setSlots, List.getD, h, List.getElem?_set_ne (Ne.symm h)]

/-- Updates of other state leave every slot. -/
@[simp] theorem State.slot_setStatus (s : State) (f : Status) (n : Nat) : (s.setStatus f).slot n = s.slot n := rfl
@[simp] theorem State.slot_setRes (s : State) (v n : Nat) : (s.setRes v).slot n = s.slot n := rfl
@[simp] theorem State.slot_setNonce (s : State) (v : BitVec 8) (n : Nat) : (s.setNonce v).slot n = s.slot n := rfl
@[simp] theorem State.slot_setConsumed (s : State) (v n : Nat) : (s.setConsumed v).slot n = s.slot n := rfl
@[simp] theorem State.slot_setBram (s : State) (m : Memory) (n : Nat) : (s.setBram m).slot n = s.slot n := rfl

/-- A slot read after a Vec write at a legal base. -/
theorem State.slot_setVec (s : State) {b : Nat} (hb : b ≤ 60) (v : Fin 4 → Poly) (n : Nat) :
    (s.setVec b v).slot n =
      if n = b then v 0 else if n = b + 1 then v 1 else if n = b + 2 then v 2 else if n = b + 3 then v 3 else s.slot n := by
  simp only [State.setVec]
  rw [State.slot_setSlot _ (by omega), State.slot_setSlot _ (by omega), State.slot_setSlot _ (by omega),
    State.slot_setSlot _ (by omega)]
  by_cases h0 : n = b
  · subst h0; simp
  · by_cases h1 : n = b + 1
    · subst h1; simp
    · by_cases h2 : n = b + 2
      · subst h2; simp
      · simp [h0, h1, h2]

/-- After the whole slot RAM is zeroed, every slot reads the zero polynomial. -/
theorem State.slot_zeroSlots (s : State) (n : Nat) : (s.setSlots zeroSlots).slot n = Poly.zero := by
  simp only [State.slot, State.setSlots_slots, zeroSlots, List.getD, Vector.toList_replicate, List.getElem?_replicate]
  split <;> rfl

end Sys2Proof.Machine
end

