-- ==== Sys2Proof/Laws/Completion.lean ====
section
/-! SUPPORT. The completion step: what a state holds after each way a command ends, that every command answers a next state, and
what the step does in each of its two cases. -/

namespace Sys2Proof.Machine

/-! ## finish and complete -/

@[simp] theorem finish_eq (s : State) (r : Effect) : finish s r = .next (s.complete r) := rfl
theorem complete_done (s t : State) : s.complete (.done t) = t.setStatus t.status.succeed := rfl
theorem complete_error (s : State) (e : CmdError) (t : State) : s.complete (.error e t) = t.setStatus (t.status.fail e) := rfl
theorem complete_pending (s : State) : s.complete .pending = s.stall := rfl

@[simp] theorem State.slot_complete_done (s t : State) (n : Nat) : (s.complete (.done t)).slot n = t.slot n := rfl
@[simp] theorem State.slot_complete_error (s : State) (e : CmdError) (t : State) (n : Nat) :
    (s.complete (.error e t)).slot n = t.slot n := rfl
@[simp] theorem State.slot_complete_pending (s : State) (n : Nat) : (s.complete .pending).slot n = s.slot n := rfl
@[simp] theorem State.bram_complete_done (s t : State) : (s.complete (.done t)).bram = t.bram := rfl
@[simp] theorem State.bram_complete_error (s : State) (e : CmdError) (t : State) : (s.complete (.error e t)).bram = t.bram := rfl
@[simp] theorem State.bram_complete_pending (s : State) : (s.complete .pending).bram = s.bram := rfl

/-- The successful end clears BUSY, ERR and ERRCODE and sets DONE (R114, R121). -/
theorem complete_done_status (s t : State) :
    (s.complete (.done t)).status = { t.status with busy := false, done := true, err := false, errCode := 0 } := rfl

/-- The end with a CmdError clears BUSY, sets DONE and ERR and writes the code (R700). -/
theorem complete_error_status (s : State) (e : CmdError) (t : State) :
    (s.complete (.error e t)).status = { t.status with busy := false, done := true, err := true, errCode := e.code } := rfl

/-! ## exec and step -/

/-- Every command answers a next state: there is no fault and no refusal (R861). -/
theorem exec_next (i : Sys2Proof.Instr) (s : State) : ∃ t, exec i s = .next t := by
  cases i <;> exact ⟨_, rfl⟩

theorem coreMoves_iff (s : State) : coreMoves s = true ↔ s.status.busy = true ∧ s.busyLeft = 0 := by
  simp [coreMoves]

/-- When the core moves, a step is its completion step (R121). -/
theorem step_core {s : State} (h : s.status.busy = true) (h0 : s.busyLeft = 0) : step s = runCommand s := by
  simp [step, coreMoves, h, h0]

/-- Otherwise a step is a host step (R860). -/
theorem step_host {s : State} (h : s.status.busy = false ∨ 0 < s.busyLeft) : step s = .next (hostStep s) := by
  have : coreMoves s = false := by
    rcases h with h | h
    · simp [coreMoves, h]
    · simp [coreMoves, Nat.ne_of_gt h]
  simp [step, this]

/-- Every step answers a next state. -/
theorem step_next (s : State) : ∃ t, step s = .next t := by
  unfold step
  split
  · unfold runCommand
    split
    · exact exec_next _ s
    · exact ⟨_, rfl⟩
  · exact ⟨_, rfl⟩

/-! ## Operand checks as propositions -/

theorem scalarsInRange_iff (s : State) : scalarsInRange s = true ↔ s.opa.toNat < 3329 ∧ s.opb.toNat < 3329 := by
  simp [scalarsInRange]

theorem inByteRam_iff (a len : Nat) : inByteRam a len = true ↔ a + len ≤ 8192 := by simp [inByteRam]

theorem isVecBase_iff (b : Slot) : isVecBase b = true ↔ b.toNat ≤ 60 := by simp [isVecBase]

theorem isMatBase_iff (b : Slot) : isMatBase b = true ↔ b.toNat ≤ 48 := by simp [isMatBase]

theorem slotsMeet_iff (a n b m : Nat) : slotsMeet a n b m = true ↔ a < b + m ∧ b < a + n := by simp [slotsMeet]

theorem fitsWidth_iff (d : Nat) (p : Poly) : fitsWidth d p = true ↔ ∀ i, i < 256 → (p.get i).val < 2 ^ d := by
  simp [fitsWidth, List.all_eq_true]

theorem etaOf_eq (eta : BitVec 1) : etaOf eta = 2 + eta.toNat := by
  revert eta
  decide

end Sys2Proof.Machine
end

