-- ==== Sys2Proof/Laws/Memory.lean ====
section
/-! SUPPORT. The byte RAM: what a read finds after each write, and that every write keeps the canonical form. -/

namespace Sys2Proof.Machine

/-- The two halves of the canonical form. -/
theorem Memory.wf_iff (m : Memory) :
    m.wf = true ↔ m.Pairwise (fun c d => c.1 < d.1) ∧ ∀ c ∈ m, c.1 < 8192 ∧ c.2 ≠ 0 := by
  simp [Memory.wf]

theorem Memory.wf_nil : Memory.wf [] = true := by decide

theorem Memory.wf_tail {c : Host.Cell} {m : Memory} (h : Memory.wf (c :: m) = true) : Memory.wf m = true := by
  rw [Memory.wf_iff] at *
  exact ⟨(List.pairwise_cons.1 h.1).2, fun d hd => h.2 d (List.mem_cons_of_mem _ hd)⟩

@[simp] theorem Memory.read_nil (a : Nat) : Memory.read [] a = 0 := rfl

theorem Memory.read_cons (c : Host.Cell) (m : Memory) (a : Nat) :
    Memory.read (c :: m) a = if c.1 = a then c.2 else Memory.read m a := rfl

/-- An address below every listed one reads 0. -/
theorem Memory.read_eq_zero {m : Memory} {a : Nat} (h : ∀ c ∈ m, c.1 ≠ a) : m.read a = 0 := by
  induction m with
  | nil => rfl
  | cons c m ih =>
    rw [Memory.read_cons, if_neg (h c (by simp))]
    exact ih fun d hd => h d (by simp [hd])

/-- A byte read after a byte write. -/
theorem Memory.read_write (m : Memory) (h : m.wf = true) (a : Nat) (b : Byte) (x : Nat) :
    (m.write a b).read x = if x = a then b else m.read x := by
  induction m with
  | nil =>
    simp only [Memory.write]
    split
    · next hb => simp [hb]
    · simp [Memory.read_cons, eq_comm]
  | cons c m ih =>
    have hs := (List.pairwise_cons.1 ((Memory.wf_iff _).1 h).1).1
    have ih := ih (Memory.wf_tail h)
    simp only [Memory.write]
    by_cases h1 : a < c.1
    · have hx : Memory.read (c :: m) a = 0 := by
        apply Memory.read_eq_zero
        intro d hd
        rcases List.mem_cons.1 hd with rfl | hd
        · omega
        · have := hs d hd; omega
      by_cases hb : b = 0
      · simp only [h1, hb, if_true]
        split
        · next e => rw [e, hx]
        · rfl
      · simp only [h1, hb, if_true, if_false]
        rw [Memory.read_cons]
        simp only [eq_comm]
    · by_cases h2 : a = c.1
      · have hx : Memory.read m a = 0 := by
          apply Memory.read_eq_zero
          intro d hd
          have := hs d hd; omega
        by_cases hb : b = 0
        · rw [if_neg h1, if_pos h2, if_pos hb, Memory.read_cons]
          by_cases hxa : x = a
          · rw [if_pos hxa, hxa, hx, hb]
          · rw [if_neg hxa, if_neg (by rw [← h2]; exact Ne.symm hxa)]
        · rw [if_neg h1, if_pos h2, if_neg hb, Memory.read_cons, Memory.read_cons]
          by_cases hxa : x = a
          · simp [hxa]
          · rw [if_neg (Ne.symm hxa), if_neg hxa, if_neg (by rw [← h2]; exact Ne.symm hxa)]
      · simp only [h1, h2, if_false]
        rw [Memory.read_cons, Memory.read_cons, ih]
        by_cases hxa : x = a
        · subst hxa; simp [Ne.symm h2]
        · simp [hxa]

/-- Every address a write leaves listed was listed or is the address written. -/
theorem Memory.mem_write {m : Memory} {a : Nat} {b : Byte} {c : Host.Cell} (h : c ∈ m.write a b) :
    c ∈ m ∨ (c = (a, b) ∧ b ≠ 0) := by
  induction m with
  | nil =>
    simp only [Memory.write] at h
    split at h
    · simp at h
    · next hb => exact .inr ⟨by simpa using h, hb⟩
  | cons d m ih =>
    simp only [Memory.write] at h
    split at h
    · split at h
      · exact .inl h
      · next hb =>
        rcases List.mem_cons.1 h with h | h
        · exact .inr ⟨h, hb⟩
        · exact .inl h
    · split at h
      · split at h
        · exact .inl (List.mem_cons_of_mem _ h)
        · next hb =>
          rcases List.mem_cons.1 h with h | h
          · exact .inr ⟨h, hb⟩
          · exact .inl (List.mem_cons_of_mem _ h)
      · rcases List.mem_cons.1 h with h | h
        · exact .inl (h ▸ List.mem_cons_self)
        · rcases ih h with h | h
          · exact .inl (List.mem_cons_of_mem _ h)
          · exact .inr h

/-- A byte write inside the byte RAM keeps the canonical form. -/
theorem Memory.write_wf {m : Memory} (h : m.wf = true) {a : Nat} (ha : a < 8192) (b : Byte) :
    (m.write a b).wf = true := by
  induction m with
  | nil =>
    simp only [Memory.write]
    split
    · rfl
    · next hb => simpa [Memory.wf] using ⟨ha, hb⟩
  | cons c m ih =>
    have ih := ih (Memory.wf_tail h)
    rw [Memory.wf_iff] at h ih ⊢
    obtain ⟨hp, hall⟩ := h
    rw [List.pairwise_cons] at hp
    refine ⟨?_, fun d hd => ?_⟩
    · simp only [Memory.write]
      split
      · next h1 =>
        split
        · exact List.pairwise_cons.2 hp
        · refine List.pairwise_cons.2 ⟨fun d hd => ?_, List.pairwise_cons.2 hp⟩
          rcases List.mem_cons.1 hd with rfl | hd
          · exact h1
          · exact lt_trans h1 (hp.1 d hd)
      · next h1 =>
        split
        · next h2 =>
          split
          · exact hp.2
          · exact List.pairwise_cons.2 ⟨fun d hd => h2 ▸ hp.1 d hd, hp.2⟩
        · next h2 =>
          refine List.pairwise_cons.2 ⟨fun d hd => ?_, ih.1⟩
          rcases Memory.mem_write hd with hd | ⟨rfl, _⟩
          · exact hp.1 d hd
          · show c.1 < a
            omega
    · rcases Memory.mem_write hd with hd | ⟨rfl, hb⟩
      · exact hall d hd
      · exact ⟨ha, hb⟩

/-- A byte-string write inside the byte RAM keeps the canonical form. -/
theorem Memory.writeBytes_wf {m : Memory} (h : m.wf = true) {a : Nat} {bs : List Byte} (ha : a + bs.length ≤ 8192) :
    (m.writeBytes a bs).wf = true := by
  induction bs generalizing m a with
  | nil => exact h
  | cons b bs ih =>
    simp only [List.length_cons] at ha
    exact ih (Memory.write_wf h (by omega) b) (by omega)

/-- A byte read after a byte-string write: inside the written range the string's byte, elsewhere the byte before. -/
theorem Memory.read_writeBytes {m : Memory} (h : m.wf = true) {a : Nat} {bs : List Byte} (ha : a + bs.length ≤ 8192)
    (x : Nat) :
    (m.writeBytes a bs).read x = if a ≤ x ∧ x < a + bs.length then bs.getD (x - a) 0 else m.read x := by
  induction bs generalizing m a with
  | nil => simp [Memory.writeBytes]
  | cons b bs ih =>
    simp only [List.length_cons] at ha ⊢
    rw [Memory.writeBytes, ih (Memory.write_wf h (by omega) b) (by omega), Memory.read_write m h]
    by_cases hx : x = a
    · subst hx
      rw [if_neg (by omega), if_pos rfl, if_pos (by omega)]
      simp
    · by_cases hin : a ≤ x ∧ x < a + (bs.length + 1)
      · rw [if_pos (by omega), if_pos hin]
        obtain ⟨k, rfl⟩ : ∃ k, x = a + 1 + k := ⟨x - (a + 1), by omega⟩
        rw [show a + 1 + k - (a + 1) = k by omega, show a + 1 + k - a = k + 1 by omega]
        rfl
      · rw [if_neg (by omega), if_neg hx, if_neg hin]

/-- Zeroing a range keeps the canonical form. -/
theorem Memory.zeroRange_wf {m : Memory} (h : m.wf = true) (a n : Nat) : (m.zeroRange a n).wf = true := by
  rw [Memory.wf_iff] at *
  exact ⟨h.1.filter _, fun c hc => h.2 c (List.mem_filter.1 hc).1⟩

/-- A byte read after a range was zeroed. -/
theorem Memory.read_zeroRange (m : Memory) (a n x : Nat) :
    (m.zeroRange a n).read x = if a ≤ x ∧ x < a + n then 0 else m.read x := by
  induction m with
  | nil => simp [Memory.zeroRange]
  | cons c m ih =>
    have hstep : Memory.zeroRange (c :: m) a n =
        if a ≤ c.1 ∧ c.1 < a + n then Memory.zeroRange m a n else c :: Memory.zeroRange m a n := by
      simp only [Memory.zeroRange, List.filter_cons]
      by_cases hc : a ≤ c.1 ∧ c.1 < a + n
      · simp [hc]
      · rw [if_neg hc, if_pos (by simp; omega)]
    rw [hstep, Memory.read_cons]
    by_cases hc : a ≤ c.1 ∧ c.1 < a + n
    · rw [if_pos hc, ih]
      by_cases hx : c.1 = x
      · rw [if_pos (hx ▸ hc), if_pos (hx ▸ hc)]
      · simp [hx]
    · rw [if_neg hc, Memory.read_cons, ih]
      by_cases hx : c.1 = x
      · rw [if_pos hx, if_neg (hx ▸ hc), if_pos hx]
      · simp [hx]

/-- Zeroing a list of regions keeps the canonical form. -/
theorem Memory.zeroRegions_wf {m : Memory} (h : m.wf = true) (rs : List (Nat × Nat)) : (m.zeroRegions rs).wf = true := by
  induction rs generalizing m with
  | nil => exact h
  | cons r rs ih => exact ih (Memory.zeroRange_wf h r.1 r.2)

/-- A byte read after a list of regions was zeroed. -/
theorem Memory.read_zeroRegions (m : Memory) (rs : List (Nat × Nat)) (x : Nat) :
    (m.zeroRegions rs).read x = if ∃ r ∈ rs, r.1 ≤ x ∧ x < r.1 + r.2 then 0 else m.read x := by
  induction rs generalizing m with
  | nil => simp [Memory.zeroRegions]
  | cons r rs ih =>
    rw [Memory.zeroRegions, ih, Memory.read_zeroRange]
    by_cases h1 : r.1 ≤ x ∧ x < r.1 + r.2
    · have h2 : ∃ q ∈ r :: rs, q.1 ≤ x ∧ x < q.1 + q.2 := ⟨r, by simp, h1⟩
      rw [if_pos h2]
      simp [h1]
    · rw [if_neg h1]
      simp only [List.exists_mem_cons_iff, h1, false_or]

@[simp] theorem Memory.length_readBytes (m : Memory) (a n : Nat) : (m.readBytes a n).length = n := by
  simp [Memory.readBytes]

/-- Byte k of the string read at a. -/
theorem Memory.getD_readBytes (m : Memory) (a n k : Nat) (h : k < n) : (m.readBytes a n).getD k 0 = m.read (a + k) := by
  simp [Memory.readBytes, List.getD, h]

/-- Strings read from two memories that agree on the range are equal. -/
theorem Memory.readBytes_congr {m m' : Memory} {a n : Nat} (h : ∀ k, k < n → m.read (a + k) = m'.read (a + k)) :
    m.readBytes a n = m'.readBytes a n := by
  apply List.map_congr_left
  intro k hk
  exact h k (List.mem_range.1 hk)

/-- Writing the byte lanes of a word inside the byte RAM keeps the canonical form. -/
theorem writeLanes_wf {m : Memory} (h : m.wf = true) {k : Nat} (hk : k + 3 < 8192) (data : Word) (wstrb : BitVec 4) :
    (writeLanes m k data wstrb).wf = true := by
  have step : ∀ (c : Bool) (m : Memory) (a : Nat) (b : Byte), m.wf = true → a < 8192 →
      Memory.wf (if c = true then m.write a b else m) = true := by
    intro c m a b hm ha
    split
    · exact Memory.write_wf hm ha b
    · exact hm
  exact step _ _ _ _ (step _ _ _ _ (step _ _ _ _ (step _ _ _ _ h (by omega)) (by omega)) (by omega)) (by omega)

end Sys2Proof.Machine
end

