-- ==== Sys2Proof/Laws/Lengths.lean ====
section
/-! SUPPORT. How long each byte string is that a command writes, so that every write stays inside its region. -/

namespace Sys2Proof.Machine

@[simp] theorem length_byteEncode (d : Nat) (F : Poly) : (byteEncode d F).length = 32 * d := by simp [byteEncode]

@[simp] theorem length_enc12v (v : Fin 4 → Poly) : (enc12v v).length = 1536 := by simp [enc12v]

@[simp] theorem length_encodeU (u : Fin 4 → Poly) : (encodeU u).length = 1408 := by simp [encodeU]

@[simp] theorem length_hashH (x : List Byte) : (hashH x).length = 32 := by simp [hashH]

@[simp] theorem length_hashG (x : List Byte) : (hashG x).length = 64 := by simp [hashG]

@[simp] theorem length_shake256 (x : List Byte) (n : Nat) : (shake256 x n).length = n := by simp [shake256]

@[simp] theorem length_shake128Prefix (x : List Byte) (n : Nat) : (shake128Prefix x n).length = n := by
  simp [shake128Prefix]

@[simp] theorem length_hashJ (x : List Byte) : (hashJ x).length = 32 := by simp [hashJ]

@[simp] theorem length_bytesAt (B : List Byte) (a n : Nat) : (bytesAt B a n).length = min n (B.length - a) := by
  simp [bytesAt]

theorem length_hashOutput (fn : BitVec 3) (x : List Byte) (s : State) :
    (hashOutput fn x (hashOutLen fn s)).length = hashOutLen fn s := by
  simp only [hashOutput, hashOutLen]
  split
  · simp
  · split
    · simp
    · split <;> simp

/-- ek_pke is 1568 bytes and dk_pke 1536 (R562). -/
theorem length_kpkeKeyGen {n : Nat} {d ek dk : List Byte} (h : kpkeKeyGen n d = some (ek, dk)) :
    ek.length = 1568 ∧ dk.length = 1536 := by
  simp only [kpkeKeyGen] at h
  split at h
  · cases h
  · cases h
    simp

@[simp] theorem length_kpkeCiphertext (A : Fin 4 → Fin 4 → Poly) (ek m r : List Byte) :
    (kpkeCiphertext A ek m r).length = 1568 := by
  simp [kpkeCiphertext]

/-- c is 1568 bytes (R564). -/
theorem length_kpkeEncrypt {n : Nat} {ek m r c : List Byte} {nc : Bool} (h : kpkeEncrypt n ek m r = some (c, nc)) :
    c.length = 1568 := by
  simp only [kpkeEncrypt] at h
  split at h
  · cases h
  · cases h
    simp

@[simp] theorem length_kpkeDecrypt (dk c : List Byte) : (kpkeDecrypt dk c).length = 32 := by simp [kpkeDecrypt]

/-- ek is 1568 bytes and dk 3168 when z is 32 (R590). -/
theorem length_mlkemKeyGen {n : Nat} {d z ek dk : List Byte} (hz : z.length = 32)
    (h : mlkemKeyGen n d z = some (ek, dk)) : ek.length = 1568 ∧ dk.length = 3168 := by
  simp only [mlkemKeyGen] at h
  split at h
  · cases h
  · rename_i ek' dkp hk
    cases h
    have := length_kpkeKeyGen hk
    simp [this, hz]

/-- K is 32 bytes and c 1568 (R592). -/
theorem length_mlkemEncaps {n : Nat} {ek m k c : List Byte} {nc : Bool} (h : mlkemEncaps n ek m = some (k, c, nc)) :
    k.length = 32 ∧ c.length = 1568 := by
  simp only [mlkemEncaps] at h
  split at h
  · cases h
  · rename_i c' nc' hk
    cases h
    exact ⟨by simp, length_kpkeEncrypt hk⟩

/-- K is 32 bytes (R594). -/
theorem length_mlkemDecaps {n : Nat} {dk c k : List Byte} {nc : Bool} (h : mlkemDecaps n dk c = some (k, nc)) :
    k.length = 32 := by
  simp only [mlkemDecaps] at h
  split at h
  · cases h
  · cases h
    simp only [select]
    split <;> simp

@[simp] theorem State.length_mailbox (s : State) (r : Nat × Nat) : (s.mailbox r).length = r.2 := by simp [State.mailbox]

end Sys2Proof.Machine
end

