-- ==== Sys2Proof/Laws/Sampling.lean ====
section
/-! SUPPORT. SampleNTT: how far it reads, and that a result once found does not depend on how many chunks were available. -/

namespace Sys2Proof.Machine

/-- The loop advances 3 bytes a chunk, and never past the chunks available. -/
theorem sampleLoop_count (S : Nat → Byte) : ∀ (avail pos : Nat) (acc : List Coef) (a : Poly) (count : Nat),
    sampleLoop S avail pos acc = .found a count → ∃ k, k ≤ avail ∧ count = pos + 3 * k := by
  intro avail
  induction avail with
  | zero =>
    intro pos acc a count h
    simp only [sampleLoop] at h
    split at h
    · cases h
    · cases h
      exact ⟨0, Nat.le_refl _, rfl⟩
  | succ n ih =>
    intro pos acc a count h
    simp only [sampleLoop] at h
    split at h
    · obtain ⟨k, hk, hc⟩ := ih _ _ _ _ h
      exact ⟨k + 1, by omega, by omega⟩
    · cases h
      exact ⟨0, by omega, rfl⟩

/-- An exhausted stream has been read to its last whole chunk. -/
theorem sampleLoop_exhausted (S : Nat → Byte) : ∀ (avail pos : Nat) (acc : List Coef) (p : Nat),
    sampleLoop S avail pos acc = .exhausted p → p = pos + 3 * avail := by
  intro avail
  induction avail with
  | zero =>
    intro pos acc p h
    simp only [sampleLoop] at h
    split at h
    · cases h
      rfl
    · cases h
  | succ n ih =>
    intro pos acc p h
    simp only [sampleLoop] at h
    split at h
    · have := ih _ _ _ h
      omega
    · cases h

/-- One more chunk available does not change a result already found. -/
theorem sampleLoop_succ (S : Nat → Byte) : ∀ (avail pos : Nat) (acc : List Coef) (a : Poly) (count : Nat),
    sampleLoop S avail pos acc = .found a count → sampleLoop S (avail + 1) pos acc = .found a count := by
  intro avail
  induction avail with
  | zero =>
    intro pos acc a count h
    simp only [sampleLoop] at h ⊢
    split at h
    · cases h
    · rw [if_neg (by assumption)]
      exact h
  | succ n ih =>
    intro pos acc a count h
    rw [sampleLoop] at h
    rw [sampleLoop]
    split at h
    · rw [if_pos (by assumption)]
      exact ih _ _ _ _ h
    · rw [if_neg (by assumption)]
      exact h

theorem sampleNTT_count {S : Nat → Byte} {avail count : Nat} {a : Poly} (h : sampleNTT S avail = .found a count) :
    ∃ k, k ≤ avail ∧ count = 3 * k := by
  obtain ⟨k, hk, hc⟩ := sampleLoop_count S avail 0 [] a count h
  exact ⟨k, hk, by omega⟩

theorem sampleNTT_exhausted {S : Nat → Byte} {avail p : Nat} (h : sampleNTT S avail = .exhausted p) : p = 3 * avail := by
  have := sampleLoop_exhausted S avail 0 [] p h
  omega

/-- The result of SampleNTT does not depend on how many chunks were available, once it is found (R505: no cap). -/
theorem sampleNTT_mono {S : Nat → Byte} {m n count : Nat} {a : Poly} (hmn : m ≤ n)
    (h : sampleNTT S m = .found a count) : sampleNTT S n = .found a count := by
  induction hmn with
  | refl => exact h
  | step _ ih => exact sampleLoop_succ S _ 0 [] a count ih

end Sys2Proof.Machine
end

