-- ==== Sys2Proof/Laws/Effects.lean ====
section
/-! SUPPORT. Everything a command's effect can be, said once: whichever command runs, it is pending, or fails with at most CONSUMED
written, or succeeds and writes at most RES, NONCE, CONSUMED, NONCANON and the two RAMs, keeping the byte RAM canonical. -/

namespace Sys2Proof.Machine

open Sys2Proof

/-- The effects the command `i` may have in state `s`. -/
inductive AllowedEffect (i : Instr) (s : State) : Effect → Prop where
  /-- no completion yet -/
  | pending : AllowedEffect i s .pending
  /-- an error that writes nothing (R700) -/
  | error (e : CmdError) : AllowedEffect i s (.error e s)
  /-- STREAM, which writes CONSUMED (R503) -/
  | stream (addr : ByteAddr) (zero : BitVec 5) (rd : Slot) (n : Nat) (hi : i = .snttb addr zero rd) (h3 : n % 3 = 0)
      (hn : n < 2 ^ 32) : AllowedEffect i s (.error .stream (s.setConsumed n))
  /-- a success -/
  | done (t : State) (nc : Bool)
      (frame : t = { s with res := t.res, nonce := t.nonce, consumed := t.consumed, slots := t.slots, bram := t.bram,
                            status := s.status.flagNoncanon nc })
      (res : t.res = s.res ∨ t.res.toNat < 3329)
      (consumed : t.consumed = s.consumed ∨ t.consumed.toNat % 3 = 0)
      (canonical : s.bram.wf = true → t.bram.wf = true) : AllowedEffect i s (.done t)

theorem Status.flagNoncanon_false (f : Status) : f.flagNoncanon false = f := by simp [Status.flagNoncanon]

/-- A success that writes slots, RES, NONCE or CONSUMED only. -/
theorem AllowedEffect.of_registers {i : Instr} {s t : State}
    (frame : t = { s with res := t.res, nonce := t.nonce, consumed := t.consumed, slots := t.slots })
    (res : t.res = s.res ∨ t.res.toNat < 3329) (consumed : t.consumed = s.consumed ∨ t.consumed.toNat % 3 = 0) :
    AllowedEffect i s (.done t) := by
  refine .done t false ?_ res consumed ?_
  · rw [Status.flagNoncanon_false]
    rw [frame]
  · intro h
    rw [frame]
    exact h

theorem AllowedEffect.slot {i : Instr} {s : State} (k : Nat) (p : Poly) : AllowedEffect i s (.done (s.setSlot k p)) :=
  .of_registers rfl (.inl rfl) (.inl rfl)

theorem AllowedEffect.vec {i : Instr} {s : State} (k : Nat) (v : Fin 4 → Poly) : AllowedEffect i s (.done (s.setVec k v)) :=
  .of_registers (by simp only [State.setVec, State.setSlot, State.setSlots]) (.inl (State.setVec_res s k v))
    (.inl (State.setVec_consumed s k v))

theorem AllowedEffect.scalar {i : Instr} {s : State} {v : Nat} (h : v < 3329) : AllowedEffect i s (.done (s.setRes v)) := by
  refine .of_registers rfl (.inr ?_) (.inl rfl)
  simp only [State.setRes_res, BitVec.toNat_ofNat]
  omega

/-- A success that writes one byte string inside the byte RAM. -/
theorem AllowedEffect.bytes {i : Instr} {s : State} {a : Nat} {B : List Byte} (h : a + B.length ≤ 8192) :
    AllowedEffect i s (.done (s.setBram (s.bram.writeBytes a B))) := by
  refine .done _ false ?_ (.inl rfl) (.inl rfl) fun hw => Memory.writeBytes_wf hw h
  rw [Status.flagNoncanon_false]
  rfl

/-- A sequencer command's success: mailbox writes, NONCANON, then the wipe. -/
theorem AllowedEffect.wiped {i : Instr} {s t : State} (extra : List (Nat × Nat)) (nc : Bool)
    (frame : t = { s with bram := t.bram, status := s.status.flagNoncanon nc })
    (canonical : s.bram.wf = true → t.bram.wf = true) : AllowedEffect i s (.done (wipe extra t)) := by
  refine .done _ nc ?_ (.inl ?_) (.inl ?_) fun h => ?_
  · simp only [wipe, State.setSlots, State.setBram]
    rw [frame]
  · simp only [wipe, State.setSlots, State.setBram]
    rw [frame]
  · simp only [wipe, State.setSlots, State.setBram]
    rw [frame]
  · simp only [wipe, State.setSlots, State.setBram]
    exact Memory.zeroRegions_wf (canonical h) _

/-- A mailbox write and a NONCANON update change the byte RAM and NONCANON only. -/
theorem setMailbox_frame (s : State) (r : Nat × Nat) (B : List Byte) :
    s.setMailbox r B = { s with bram := (s.setMailbox r B).bram, status := s.status.flagNoncanon false } := by
  rw [Status.flagNoncanon_false]
  rfl

theorem setMailbox_setMailbox_frame (s : State) (r r' : Nat × Nat) (B B' : List Byte) :
    (s.setMailbox r B).setMailbox r' B' =
      { s with bram := ((s.setMailbox r B).setMailbox r' B').bram, status := s.status.flagNoncanon false } := by
  rw [Status.flagNoncanon_false]
  rfl

theorem setMailbox_setStatus_frame (s : State) (r : Nat × Nat) (B : List Byte) (f : Status) :
    (s.setMailbox r B).setStatus f = { s with bram := ((s.setMailbox r B).setStatus f).bram, status := f } := rfl

theorem setMailbox_setMailbox_setStatus_frame (s : State) (r r' : Nat × Nat) (B B' : List Byte) (f : Status) :
    ((s.setMailbox r B).setMailbox r' B').setStatus f =
      { s with bram := (((s.setMailbox r B).setMailbox r' B').setStatus f).bram, status := f } := rfl

/-- A mailbox write inside the byte RAM keeps the canonical form. -/
theorem setMailbox_wf {s : State} (h : s.bram.wf = true) {r : Nat × Nat} {B : List Byte} {n : Nat} (hB : B.length = n)
    (hr : r.1 + n ≤ 8192) : (s.setMailbox r B).bram.wf = true :=
  Memory.writeBytes_wf h (by rw [hB]; exact hr)

theorem ctEq_lt (x y : List Byte) : ctEq x y < 3329 := by
  unfold ctEq
  split <;> omega

theorem barrett_toNat_lt {x : Int} (h0 : -67108864 ≤ x) (h1 : x ≤ 67108864) : (barrett x).toNat < 3329 := by
  rw [barrett_eq_emod h0 h1]
  omega

/-- Everything a command can do (R700, R704, R861). -/
theorem exec_effect (i : Instr) (s : State) : ∃ r, exec i s = .next (s.complete r) ∧ AllowedEffect i s r := by
  cases i with
  | nop zero =>
    refine ⟨_, rfl, ?_⟩
    split
    · exact .error _
    · exact .of_registers rfl (.inl rfl) (.inl rfl)
  | madd zero =>
    refine ⟨_, rfl, ?_⟩
    split
    · exact .error _
    · split
      · exact .error _
      · exact .scalar (modAdd _ _).isLt
  | msub zero =>
    refine ⟨_, rfl, ?_⟩
    split
    · exact .error _
    · split
      · exact .error _
      · exact .scalar (modSub _ _).isLt
  | mmul zero =>
    refine ⟨_, rfl, ?_⟩
    split
    · exact .error _
    · split
      · exact .error _
      · exact .scalar (modMul _ _).isLt
  | mred zero =>
    refine ⟨_, rfl, ?_⟩
    split
    · exact .error _
    · split
      · exact .error _
      · exact .scalar (barrett_toNat_lt (by omega) (by omega))
  | ntt zero rd =>
    refine ⟨_, rfl, ?_⟩
    split
    · exact .error _
    · exact .slot _ _
  | intt zero rd =>
    refine ⟨_, rfl, ?_⟩
    split
    · exact .error _
    · exact .slot _ _
  | vntt zero rd =>
    refine ⟨_, rfl, ?_⟩
    split
    · exact .error _
    · split
      · exact .error _
      · exact .vec _ _
  | vintt zero rd =>
    refine ⟨_, rfl, ?_⟩
    split
    · exact .error _
    · split
      · exact .error _
      · exact .vec _ _
  | basemul zero rs2 rs1 rd =>
    refine ⟨_, rfl, ?_⟩
    split
    · exact .error _
    · exact .slot _ _
  | padd zero rs2 rs1 rd =>
    refine ⟨_, rfl, ?_⟩
    split
    · exact .error _
    · exact .slot _ _
  | psub zero rs2 rs1 rd =>
    refine ⟨_, rfl, ?_⟩
    split
    · exact .error _
    · exact .slot _ _
  | vadd zero rs2 rs1 rd =>
    refine ⟨_, rfl, ?_⟩
    split
    · exact .error _
    · split
      · exact .error _
      · split
        · exact .error _
        · exact .vec _ _
  | dot zero rs2 rs1 rd =>
    refine ⟨_, rfl, ?_⟩
    split
    · exact .error _
    · split
      · exact .error _
      · split
        · exact .error _
        · exact .slot _ _
  | matvec zero rs2 rs1 rd =>
    refine ⟨_, rfl, ?_⟩
    split
    · exact .error _
    · split
      · exact .error _
      · split
        · exact .error _
        · exact .vec _ _
  | matvect zero rs2 rs1 rd =>
    refine ⟨_, rfl, ?_⟩
    split
    · exact .error _
    · split
      · exact .error _
      · split
        · exact .error _
        · exact .vec _ _
  | cbd addr zero eta rd =>
    refine ⟨_, rfl, ?_⟩
    split
    · exact .error _
    · split
      · exact .error _
      · exact .slot _ _
  | cbdprf addr zero eta rd =>
    refine ⟨_, rfl, ?_⟩
    split
    · exact .error _
    · split
      · exact .error _
      · exact .of_registers rfl (.inl rfl) (.inl rfl)
  | sntt addr zero col row rd =>
    refine ⟨_, rfl, ?_⟩
    split
    · exact .error _
    · split
      · exact .error _
      · split
        · rename_i a count hs
          obtain ⟨k, -, rfl⟩ := sampleNTT_count hs
          refine .of_registers rfl (.inl rfl) (.inr ?_)
          simp only [State.setConsumed_consumed, BitVec.toNat_ofNat]
          rw [Nat.mod_eq_of_lt (b := 2 ^ 32) (by omega)]
          rcases Nat.le_total (3 * k) (2 ^ 32 - 1) with h | h
          · rw [Nat.min_eq_left h]
            omega
          · rw [Nat.min_eq_right h]
            decide
        · exact .pending
  | snttb addr zero rd =>
    refine ⟨_, rfl, ?_⟩
    split
    · exact .error _
    · split
      · rename_i a count hs
        obtain ⟨k, hk, rfl⟩ := sampleNTT_count hs
        refine .of_registers rfl (.inl rfl) (.inr ?_)
        simp only [State.setConsumed_consumed, BitVec.toNat_ofNat]
        rw [Nat.mod_eq_of_lt (b := 2 ^ 32) (by omega)]
        omega
      · rename_i pos hs
        rw [sampleNTT_exhausted hs]
        exact .stream addr zero rd _ rfl (by omega) (by omega)
  | enc addr zero dcode rs =>
    refine ⟨_, rfl, ?_⟩
    split
    · exact .error _
    · rename_i d hd
      split
      · exact .error _
      · split
        · exact .error _
        · split
          · exact .error _
          · rename_i h _
            refine .bytes ?_
            rw [length_byteEncode]
            exact (inByteRam_iff _ _).1 (by simpa using h)
  | dec addr zero dcode rd =>
    refine ⟨_, rfl, ?_⟩
    split
    · exact .error _
    · split
      · exact .error _
      · split
        · exact .error _
        · exact .done _ _ rfl (.inl rfl) (.inl rfl) id
  | cmpr zero fn rs2 rs1 rd =>
    refine ⟨_, rfl, ?_⟩
    split
    · exact .error _
    · split
      · exact .error _
      · exact .slot _ _
  | dcmp zero fn rs2 rs1 rd =>
    refine ⟨_, rfl, ?_⟩
    split
    · exact .error _
    · split
      · exact .error _
      · split
        · exact .error _
        · exact .slot _ _
  | hash zero fn regs =>
    refine ⟨_, rfl, ?_⟩
    split
    · exact .error _
    · split
      · exact .error _
      · split
        · exact .error _
        · split
          · exact .error _
          · rename_i h
            refine .bytes ?_
            rw [length_hashOutput]
            exact (inByteRam_iff _ _).1 (by simpa using h)
  | cteq zero =>
    refine ⟨_, rfl, ?_⟩
    split
    · exact .error _
    · split
      · exact .error _
      · exact .scalar (ctEq_lt _ _)
  | kpkeKeygen zero =>
    refine ⟨_, rfl, ?_⟩
    split
    · exact .error _
    · split
      · exact .pending
      · rename_i ek dkp hk
        obtain ⟨h1, h2⟩ := length_kpkeKeyGen hk
        exact .wiped _ false (setMailbox_setMailbox_frame _ _ _ _ _) fun hw =>
          setMailbox_wf (setMailbox_wf hw h1 (by decide)) h2 (by decide)
  | kpkeEnc zero =>
    refine ⟨_, rfl, ?_⟩
    split
    · exact .error _
    · split
      · exact .pending
      · rename_i c nc hk
        exact .wiped _ nc (setMailbox_setStatus_frame _ _ _ _) fun hw =>
          setMailbox_wf hw (length_kpkeEncrypt hk) (by decide)
  | kpkeDec zero =>
    refine ⟨_, rfl, ?_⟩
    split
    · exact .error _
    · exact .wiped _ false (setMailbox_frame _ _ _) fun hw => setMailbox_wf hw (length_kpkeDecrypt _ _) (by decide)
  | mlkemKeygen zero =>
    refine ⟨_, rfl, ?_⟩
    split
    · exact .error _
    · split
      · exact .pending
      · rename_i ek dk hk
        obtain ⟨h1, h2⟩ := length_mlkemKeyGen (State.length_mailbox _ _) hk
        exact .wiped _ false (setMailbox_setMailbox_frame _ _ _ _ _) fun hw =>
          setMailbox_wf (setMailbox_wf hw h1 (by decide)) h2 (by decide)
  | mlkemEncaps zero =>
    refine ⟨_, rfl, ?_⟩
    split
    · exact .error _
    · split
      · exact .pending
      · rename_i k c nc hk
        obtain ⟨h1, h2⟩ := length_mlkemEncaps hk
        exact .wiped _ nc (setMailbox_setMailbox_setStatus_frame _ _ _ _ _ _) fun hw =>
          setMailbox_wf (setMailbox_wf hw h2 (by decide)) h1 (by decide)
  | mlkemDecaps zero =>
    refine ⟨_, rfl, ?_⟩
    split
    · exact .error _
    · split
      · exact .pending
      · rename_i k nc hk
        exact .wiped _ nc (setMailbox_setStatus_frame _ _ _ _) fun hw =>
          setMailbox_wf hw (length_mlkemDecaps hk) (by decide)
  | wipe zero =>
    refine ⟨_, rfl, ?_⟩
    split
    · exact .error _
    · refine .done _ false ?_ (.inl rfl) (.inl rfl) fun _ => Memory.wf_nil
      rw [Status.flagNoncanon_false]
      rfl

/-- The core's step, the unassigned opcodes included. -/
theorem runCommand_effect (s : State) :
    (∃ i r, decode s.cmd = .ok i ∧ runCommand s = .next (s.complete r) ∧ AllowedEffect i s r) ∨
      ((∃ e, decode s.cmd = .error e) ∧ runCommand s = .next (s.complete (.error .illegal s))) := by
  unfold runCommand
  split
  · rename_i i hi
    obtain ⟨r, h, hr⟩ := exec_effect i s
    exact .inl ⟨i, r, hi, h, hr⟩
  · rename_i e he
    exact .inr ⟨⟨e, he⟩, rfl⟩

end Sys2Proof.Machine
end

