-- ==== Sys2Proof/Laws/PerInstr.lean ====
section
/-! SUPPORT. A statement made for every command: the low byte of its word is the opcode of its row of the opcode map (R300,
R310). -/

namespace Sys2Proof.Laws.OpcodeByte

/-- The mnemonic of R310 that a command stands under. -/
def mnemonic : Instr → String
  | .nop _ => "NOP"
  | .madd _ => "MADD"
  | .msub _ => "MSUB"
  | .mmul _ => "MMUL"
  | .mred _ => "MRED"
  | .ntt _ _ => "NTT"
  | .intt _ _ => "INTT"
  | .vntt _ _ => "VNTT"
  | .vintt _ _ => "VINTT"
  | .basemul _ _ _ _ => "BASEMUL"
  | .padd _ _ _ _ => "PADD"
  | .psub _ _ _ _ => "PSUB"
  | .vadd _ _ _ _ => "VADD"
  | .dot _ _ _ _ => "DOT"
  | .matvec _ _ _ _ => "MATVEC"
  | .matvect _ _ _ _ => "MATVECT"
  | .cbd _ _ _ _ => "CBD"
  | .cbdprf _ _ _ _ => "CBDPRF"
  | .sntt _ _ _ _ _ => "SNTT"
  | .snttb _ _ _ => "SNTTB"
  | .enc _ _ _ _ => "ENC"
  | .dec _ _ _ _ => "DEC"
  | .cmpr _ _ _ _ _ => "CMPR"
  | .dcmp _ _ _ _ _ => "DCMP"
  | .hash _ _ _ => "HASH"
  | .cteq _ => "CTEQ"
  | .kpkeKeygen _ => "KPKE_KEYGEN"
  | .kpkeEnc _ => "KPKE_ENC"
  | .kpkeDec _ => "KPKE_DEC"
  | .mlkemKeygen _ => "MLKEM_KEYGEN"
  | .mlkemEncaps _ => "MLKEM_ENCAPS"
  | .mlkemDecaps _ => "MLKEM_DECAPS"
  | .wipe _ => "WIPE"

/-- The word of `i` carries, in bits [7:0], the opcode of the row that bears its mnemonic. -/
def Statement (i : Instr) : Prop :=
  ∃ r ∈ opcodeTable, r.mnemonic = mnemonic i ∧ (encode i).extractLsb' 0 8 = r.opcode

/-- The last eight bits of a concatenation. -/
theorem low_append {n : Nat} (x : BitVec n) (b : BitVec 8) : (x ++ b).extractLsb' 0 8 = b := by
  apply BitVec.eq_of_getLsbD_eq
  intro k hk
  simp [BitVec.getLsbD_append, hk]

theorem nop a : Statement (.nop a) :=
  ⟨⟨"NOP", 0x00#8, 0xFFFFFF00#32⟩, by simp [opcodeTable], rfl, low_append _ _⟩
theorem madd a : Statement (.madd a) :=
  ⟨⟨"MADD", 0x01#8, 0xFFFFFF00#32⟩, by simp [opcodeTable], rfl, low_append _ _⟩
theorem msub a : Statement (.msub a) :=
  ⟨⟨"MSUB", 0x02#8, 0xFFFFFF00#32⟩, by simp [opcodeTable], rfl, low_append _ _⟩
theorem mmul a : Statement (.mmul a) :=
  ⟨⟨"MMUL", 0x03#8, 0xFFFFFF00#32⟩, by simp [opcodeTable], rfl, low_append _ _⟩
theorem mred a : Statement (.mred a) :=
  ⟨⟨"MRED", 0x04#8, 0xFFFFFF00#32⟩, by simp [opcodeTable], rfl, low_append _ _⟩
theorem ntt a b : Statement (.ntt a b) :=
  ⟨⟨"NTT", 0x10#8, 0xFFFFC000#32⟩, by simp [opcodeTable], rfl, low_append _ _⟩
theorem intt a b : Statement (.intt a b) :=
  ⟨⟨"INTT", 0x11#8, 0xFFFFC000#32⟩, by simp [opcodeTable], rfl, low_append _ _⟩
theorem vntt a b : Statement (.vntt a b) :=
  ⟨⟨"VNTT", 0x12#8, 0xFFFFC000#32⟩, by simp [opcodeTable], rfl, low_append _ _⟩
theorem vintt a b : Statement (.vintt a b) :=
  ⟨⟨"VINTT", 0x13#8, 0xFFFFC000#32⟩, by simp [opcodeTable], rfl, low_append _ _⟩
theorem basemul a b c d : Statement (.basemul a b c d) :=
  ⟨⟨"BASEMUL", 0x14#8, 0xFC000000#32⟩, by simp [opcodeTable], rfl, low_append _ _⟩
theorem padd a b c d : Statement (.padd a b c d) :=
  ⟨⟨"PADD", 0x20#8, 0xFC000000#32⟩, by simp [opcodeTable], rfl, low_append _ _⟩
theorem psub a b c d : Statement (.psub a b c d) :=
  ⟨⟨"PSUB", 0x21#8, 0xFC000000#32⟩, by simp [opcodeTable], rfl, low_append _ _⟩
theorem vadd a b c d : Statement (.vadd a b c d) :=
  ⟨⟨"VADD", 0x22#8, 0xFC000000#32⟩, by simp [opcodeTable], rfl, low_append _ _⟩
theorem dot a b c d : Statement (.dot a b c d) :=
  ⟨⟨"DOT", 0x23#8, 0xFC000000#32⟩, by simp [opcodeTable], rfl, low_append _ _⟩
theorem matvec a b c d : Statement (.matvec a b c d) :=
  ⟨⟨"MATVEC", 0x24#8, 0xFC000000#32⟩, by simp [opcodeTable], rfl, low_append _ _⟩
theorem matvect a b c d : Statement (.matvect a b c d) :=
  ⟨⟨"MATVECT", 0x25#8, 0xFC000000#32⟩, by simp [opcodeTable], rfl, low_append _ _⟩
theorem cbd a b c d : Statement (.cbd a b c d) :=
  ⟨⟨"CBD", 0x30#8, 0x00078000#32⟩, by simp [opcodeTable], rfl, low_append _ _⟩
theorem cbdprf a b c d : Statement (.cbdprf a b c d) :=
  ⟨⟨"CBDPRF", 0x31#8, 0x00078000#32⟩, by simp [opcodeTable], rfl, low_append _ _⟩
theorem sntt a b c d e : Statement (.sntt a b c d e) :=
  ⟨⟨"SNTT", 0x32#8, 0x00040000#32⟩, by simp [opcodeTable], rfl, low_append _ _⟩
theorem snttb a b c : Statement (.snttb a b c) :=
  ⟨⟨"SNTTB", 0x33#8, 0x0007C000#32⟩, by simp [opcodeTable], rfl, low_append _ _⟩
theorem enc a b c d : Statement (.enc a b c d) :=
  ⟨⟨"ENC", 0x40#8, 0x00060000#32⟩, by simp [opcodeTable], rfl, low_append _ _⟩
theorem dec a b c d : Statement (.dec a b c d) :=
  ⟨⟨"DEC", 0x41#8, 0x00060000#32⟩, by simp [opcodeTable], rfl, low_append _ _⟩
theorem cmpr a b c d e : Statement (.cmpr a b c d e) :=
  ⟨⟨"CMPR", 0x42#8, 0xE3F00000#32⟩, by simp [opcodeTable], rfl, low_append _ _⟩
theorem dcmp a b c d e : Statement (.dcmp a b c d e) :=
  ⟨⟨"DCMP", 0x43#8, 0xE3F00000#32⟩, by simp [opcodeTable], rfl, low_append _ _⟩
theorem hash a b c : Statement (.hash a b c) :=
  ⟨⟨"HASH", 0x50#8, 0xE3FFFF00#32⟩, by simp [opcodeTable], rfl, low_append _ _⟩
theorem cteq a : Statement (.cteq a) :=
  ⟨⟨"CTEQ", 0x51#8, 0xFFFFFF00#32⟩, by simp [opcodeTable], rfl, low_append _ _⟩
theorem kpkeKeygen a : Statement (.kpkeKeygen a) :=
  ⟨⟨"KPKE_KEYGEN", 0x60#8, 0xFFFFFF00#32⟩, by simp [opcodeTable], rfl, low_append _ _⟩
theorem kpkeEnc a : Statement (.kpkeEnc a) :=
  ⟨⟨"KPKE_ENC", 0x61#8, 0xFFFFFF00#32⟩, by simp [opcodeTable], rfl, low_append _ _⟩
theorem kpkeDec a : Statement (.kpkeDec a) :=
  ⟨⟨"KPKE_DEC", 0x62#8, 0xFFFFFF00#32⟩, by simp [opcodeTable], rfl, low_append _ _⟩
theorem mlkemKeygen a : Statement (.mlkemKeygen a) :=
  ⟨⟨"MLKEM_KEYGEN", 0x68#8, 0xFFFFFF00#32⟩, by simp [opcodeTable], rfl, low_append _ _⟩
theorem mlkemEncaps a : Statement (.mlkemEncaps a) :=
  ⟨⟨"MLKEM_ENCAPS", 0x69#8, 0xFFFFFF00#32⟩, by simp [opcodeTable], rfl, low_append _ _⟩
theorem mlkemDecaps a : Statement (.mlkemDecaps a) :=
  ⟨⟨"MLKEM_DECAPS", 0x6A#8, 0xFFFFFF00#32⟩, by simp [opcodeTable], rfl, low_append _ _⟩
theorem wipe a : Statement (.wipe a) :=
  ⟨⟨"WIPE", 0x7F#8, 0xFFFFFF00#32⟩, by simp [opcodeTable], rfl, low_append _ _⟩

end Sys2Proof.Laws.OpcodeByte
end

