-- ==== Sys2Proof/Laws/Runs.lean ====
section
/-! SUPPORT. The end of a run (R862): what an end state is, that more steps do not change it, and that there is at most one. -/

namespace Sys2Proof.Machine

theorem State.programOver_iff (s : State) : s.programOver = true ↔ s.inputs = [] ∧ s.status.busy = false := by
  simp [State.programOver]

/-- A program that is over has ended where it stands. -/
theorem runToEnd_over {s : State} (h : s.programOver = true) (n : Nat) : runToEnd n s = some s := by
  cases n <;> simp [runToEnd, h]

/-- A program that is not over takes a step. -/
theorem runToEnd_step {s t : State} (h : s.programOver = false) (ht : step s = .next t) (n : Nat) :
    runToEnd (n + 1) s = runToEnd n t := by
  simp [runToEnd, h, ht]

/-- An end state is one where the program is over. -/
theorem runToEnd_isOver {n : Nat} {s t : State} (h : runToEnd n s = some t) : t.programOver = true := by
  induction n generalizing s with
  | zero =>
    simp only [runToEnd, Option.ite_none_right_eq_some, Option.some.injEq] at h
    exact h.2 ▸ h.1
  | succ n ih =>
    obtain ⟨u, hu⟩ := step_next s
    cases ho : s.programOver with
    | true => rw [runToEnd_over ho] at h; exact Option.some.inj h ▸ ho
    | false => rw [runToEnd_step ho hu] at h; exact ih h

/-- An end state once reached stays the answer with more steps. -/
theorem runToEnd_mono {n : Nat} {s t : State} (h : runToEnd n s = some t) (k : Nat) : runToEnd (n + k) s = some t := by
  induction n generalizing s with
  | zero =>
    simp only [runToEnd, Option.ite_none_right_eq_some, Option.some.injEq] at h
    rw [runToEnd_over h.1, h.2]
  | succ n ih =>
    obtain ⟨u, hu⟩ := step_next s
    rw [Nat.succ_add]
    cases ho : s.programOver with
    | true => rw [runToEnd_over ho] at h ⊢; exact h
    | false => rw [runToEnd_step ho hu] at h ⊢; exact ih h

/-- A program has at most one end state. -/
theorem EndState.unique {s t u : State} (ht : EndState s t) (hu : EndState s u) : t = u := by
  obtain ⟨n, hn⟩ := ht
  obtain ⟨m, hm⟩ := hu
  have h1 := runToEnd_mono hn m
  rw [Nat.add_comm, runToEnd_mono hm n] at h1
  exact (Option.some.inj h1).symm

end Sys2Proof.Machine
end

