-- ==== Sys2Proof/Tests/Slice0.lean ====
section
/-! SUPPORT. Tests: the well-formedness checks, the decoding of every command's word, the ROM tables, at most two steps per
command with results taken from the spec's examples, and a witness for the hypotheses of each statement. -/

-- one theorem at a time: each of these evaluations would otherwise hold a thread of its own
set_option Elab.async false

namespace Sys2Proof.Tests

open Sys2Proof Sys2Proof.Machine Sys2Proof.Spec

/-! ## Well-formedness: one ill-formed term for each check (R310, R312) -/

theorem test_wf_zero_format_s : Instr.wf (.nop 1) = false ∧ Instr.wf (.madd 1) = false ∧ Instr.wf (.msub 1) = false ∧
    Instr.wf (.mmul 1) = false ∧ Instr.wf (.mred 1) = false ∧ Instr.wf (.cteq 1) = false ∧ Instr.wf (.kpkeKeygen 1) = false ∧
    Instr.wf (.kpkeEnc 1) = false ∧ Instr.wf (.kpkeDec 1) = false ∧ Instr.wf (.mlkemKeygen 1) = false ∧
    Instr.wf (.mlkemEncaps 1) = false ∧ Instr.wf (.mlkemDecaps 1) = false ∧ Instr.wf (.wipe 0x800000) = false := by decide

theorem test_wf_zero_format_p : Instr.wf (.ntt 1 0) = false ∧ Instr.wf (.intt 1 0) = false ∧ Instr.wf (.vntt 1 0) = false ∧
    Instr.wf (.vintt 1 0) = false ∧ Instr.wf (.basemul 1 0 0 0) = false ∧ Instr.wf (.padd 1 0 0 0) = false ∧
    Instr.wf (.psub 1 0 0 0) = false ∧ Instr.wf (.vadd 1 0 0 0) = false ∧ Instr.wf (.dot 1 0 0 0) = false ∧
    Instr.wf (.matvec 1 0 0 0) = false ∧ Instr.wf (.matvect 1 0 0 0) = false ∧ Instr.wf (.cmpr 1 0 0 0 0) = false ∧
    Instr.wf (.dcmp 1 0 0 0 0) = false ∧ Instr.wf (.hash 1 0 0) = false := by decide

theorem test_wf_zero_format_m : Instr.wf (.cbd 0 1 0 0) = false ∧ Instr.wf (.cbdprf 0 1 0 0) = false ∧
    Instr.wf (.sntt 0 1 0 0 0) = false ∧ Instr.wf (.snttb 0 1 0) = false ∧ Instr.wf (.enc 0 1 0 0) = false ∧
    Instr.wf (.dec 0 1 0 0) = false := by decide

theorem test_wf_second_zero_field : Instr.wf (.cmpr 0 0 1 0 0) = false ∧ Instr.wf (.dcmp 0 0 1 0 0) = false ∧
    Instr.wf (.hash 0 0 1) = false := by decide

theorem test_wf_width_codes : Instr.wf (.enc 0 0 6 0) = false ∧ Instr.wf (.dec 0 0 7 0) = false ∧
    Instr.wf (.cmpr 0 5 0 0 0) = false ∧ Instr.wf (.dcmp 0 5 0 0 0) = false ∧ Instr.wf (.enc 0 0 5 0) = true ∧
    Instr.wf (.dcmp 0 4 0 0 0) = true := by decide

theorem test_wf_hash_selector : Instr.wf (.hash 0 4 0) = false ∧ Instr.wf (.hash 0 3 0) = true := by decide

/-! ## Decoding: one word per command, its fields written out from the formats R301-R303 -/

/-- Format S: [31:8] zero, op. -/
theorem test_decode_scalar : decode (0x000000#24 ++ 0x00#8) = .ok (.nop 0) ∧ decode (0x000000#24 ++ 0x01#8) = .ok (.madd 0) ∧
    decode (0x000000#24 ++ 0x02#8) = .ok (.msub 0) ∧ decode (0x000000#24 ++ 0x03#8) = .ok (.mmul 0) ∧
    decode (0x800001#24 ++ 0x04#8) = .ok (.mred 0x800001) ∧ decode (0x000000#24 ++ 0x7F#8) = .ok (.wipe 0) := by decide

/-- Format P, one slot: `ntt p5` is 0x00000510 (R314); the others differ in the opcode. -/
theorem test_decode_transform : decode 0x00000510 = .ok (.ntt 0 5) ∧ decode 0x00003F11 = .ok (.intt 0 63) ∧
    decode 0x00003C12 = .ok (.vntt 0 60) ∧ decode 0x00000113 = .ok (.vintt 0 1) ∧ decode 0x00204314 = .ok (.basemul 0 2 1 3) := by
  decide

/-- Format P: [31:29] zero, [28:26] fn, [25:20] rs2, [19:14] rs1, [13:8] rd, op. -/
theorem test_decode_polyvec :
    decode (0b000000#6 ++ 0b000010#6 ++ 0b000001#6 ++ 0b000011#6 ++ 0x20#8) = .ok (.padd 0 2 1 3) ∧
    decode (0b000000#6 ++ 0b000010#6 ++ 0b000001#6 ++ 0b000011#6 ++ 0x21#8) = .ok (.psub 0 2 1 3) ∧
    decode 0x034E3C22 = .ok (.vadd 0 52 56 60) ∧
    decode (0b000000#6 ++ 0b000100#6 ++ 0b001000#6 ++ 0b111111#6 ++ 0x23#8) = .ok (.dot 0 4 8 63) ∧
    decode 0x02042824 = .ok (.matvec 0 32 16 40) ∧ decode 0x02042825 = .ok (.matvect 0 32 16 40) := by decide

/-- Format M: [31:19] addr, [18:14] p, [13:8] slot, op; words of R501, R502, R314 and 95_test_vectors.md. -/
theorem test_decode_sampling : decode 0x00004030 = .ok (.cbd 0 0 1 0) ∧ decode 0xFB000431 = .ok (.cbdprf 0x1F60 0 0 4) ∧
    decode 0xFA024032 = .ok (.sntt 0x1F40 0 2 1 0) ∧ decode 0x93001032 = .ok (.sntt 0x1260 0 0 0 16) ∧
    decode (0b1111100000000#13 ++ 0b00000#5 ++ 0b000111#6 ++ 0x33#8) = .ok (.snttb 0x1F00 0 7) := by decide

theorem test_decode_codec : decode 0x30014040 = .ok (.enc 0x0600 0 5 0) ∧
    decode (0b0011000000000#13 ++ 0b00#2 ++ 0b101#3 ++ 0b000001#6 ++ 0x41#8) = .ok (.dec 0x0600 0 5 1) ∧
    decode (0b000#3 ++ 0b100#3 ++ 0b000000#6 ++ 0b000001#6 ++ 0b000010#6 ++ 0x42#8) = .ok (.cmpr 0 4 0 1 2) ∧
    decode (0b000#3 ++ 0b100#3 ++ 0b000000#6 ++ 0b000001#6 ++ 0b000010#6 ++ 0x43#8) = .ok (.dcmp 0 4 0 1 2) := by decide

theorem test_decode_hash : decode 0x00000050 = .ok (.hash 0 0 0) ∧ decode 0x0C000050 = .ok (.hash 0 3 0) ∧
    decode 0x00000051 = .ok (.cteq 0) := by decide

theorem test_decode_sequencer : decode 0x00000060 = .ok (.kpkeKeygen 0) ∧ decode 0x00000061 = .ok (.kpkeEnc 0) ∧
    decode 0x00000062 = .ok (.kpkeDec 0) ∧ decode 0x00000068 = .ok (.mlkemKeygen 0) ∧ decode 0x00000069 = .ok (.mlkemEncaps 0) ∧
    decode 0x0000006A = .ok (.mlkemDecaps 0) := by decide

theorem test_decode_unassigned : decode 0x00000005 = .error (.unassignedOpcode 0x05) ∧
    decode 0xFFFFFFFF = .error (.unassignedOpcode 0xFF) ∧ decodeTableWord 32 0x63 = none := by decide

/-- No two rows of the opcode table share an opcode (R310). -/
theorem test_opcodes_distinct : (opcodeTable.map fun r => r.opcode).Nodup ∧ opcodeTable.length = 33 := by decide

/-! ## The ROM (R140): rows 0, 1 and 7 of each table as the spec prints them -/

def zetaRow (r : Nat) : List Nat := (List.range 16).map fun k => (zeta (16 * r + k)).val
def gammaRow (r : Nat) : List Nat := (List.range 16).map fun k => (gamma (16 * r + k)).val
def bitrevRow (r : Nat) : List Nat := (List.range 16).map fun k => bitrev7 (16 * r + k)

theorem test_zeta_first : zetaRow 0 = [1, 1729, 2580, 3289, 2642, 630, 1897, 848, 1062, 1919, 193, 797, 2786, 3260, 569, 1746] := by
  decide +kernel
theorem test_zeta_last : zetaRow 7 = [2804, 1092, 403, 1026, 1143, 2150, 2775, 886, 1722, 1212, 1874, 1029, 2110, 2935, 885, 2154] := by
  decide +kernel
theorem test_gamma_first : gammaRow 0 = [17, 3312, 2761, 568, 583, 2746, 2649, 680, 1637, 1692, 723, 2606, 2288, 1041, 1100, 2229] := by
  decide +kernel
theorem test_gamma_last : gammaRow 7 = [1722, 1607, 1212, 2117, 1874, 1455, 1029, 2300, 2110, 1219, 2935, 394, 885, 2444, 2154, 1175] := by
  decide +kernel
theorem test_bitrev_first : bitrevRow 0 = [0, 64, 32, 96, 16, 80, 48, 112, 8, 72, 40, 104, 24, 88, 56, 120] := by decide +kernel
theorem test_bitrev_row1 : bitrevRow 1 = [4, 68, 36, 100, 20, 84, 52, 116, 12, 76, 44, 108, 28, 92, 60, 124] := by decide +kernel

/-! ## One step of each command; expected values from 95_test_vectors.md section 2 and the command rules' examples -/

/-- The Poly whose first coefficients are listed. -/
def poly (l : List Nat) : Poly := Poly.ofFn fun i => Fin.ofNat 3329 (l.getD i 0)

/-- X^k (95_test_vectors.md). -/
def mono (k : Nat) : Poly := Poly.ofFn fun i => if i = k then 1 else 0

/-- NTT(X⁰) and NTT(X¹) as 95_test_vectors.md section 2.2 prints them. -/
def nttOne : Poly := Poly.ofFn fun i => if i % 2 = 0 then 1 else 0
def nttX : Poly := Poly.ofFn fun i => if i % 2 = 0 then 0 else 1

/-- The state after one step on the command word `w`. -/
def runWord (w : Nat) (s : State) : State :=
  match step (s.withFetchWord 32 w) with
  | .next t => t
  | .fault _ => s
  | .refused _ => s

/-- The same with no chunk of any stream examined yet. -/
def runUnread (w : Nat) (s : State) : State :=
  match step { s.withFetchWord 32 w with chunks := 0 } with
  | .next t => t
  | .fault _ => s
  | .refused _ => s

/-- The STATUS word (95_test_vectors.md, STATUS values). -/
def stat (s : State) : Nat := s.status.toWord.toNat

/-- The reset state with some slots and bytes written. -/
def withSlot (k : Nat) (p : Poly) (s : State) : State := s.setSlot k p
def withBytes (a : Nat) (l : List Nat) (s : State) : State := s.setBram (s.bram.writeBytes a (l.map (BitVec.ofNat 8)))

def coef (s : State) (k i : Nat) : Nat := ((s.slot k).get i).val

theorem test_nop : stat (runWord 0x00000000 .reset) = 0x002 ∧ stat (runWord 0x00000100 .reset) = 0x026 := by decide +kernel
theorem test_madd : (runWord 1 { State.reset with opa := 3000, opb := 500 }).res = 171 ∧
    stat (runWord 1 { State.reset with opa := 3329 }) = 0x066 := by decide +kernel
theorem test_msub : (runWord 2 { State.reset with opa := 5, opb := 10 }).res = 3324 ∧
    stat (runWord 2 { State.reset with opb := 0xFFFF }) = 0x066 := by decide +kernel
theorem test_mmul : (runWord 3 { State.reset with opa := 1729, opb := 1729 }).res = 3328 ∧
    (runWord 3 { State.reset with opa := 3303, opb := 128 }).res = 1 := by decide +kernel
theorem test_mred_values : (runWord 4 { State.reset with opx := 0xFC000000 }).res = 447 ∧
    (runWord 4 { State.reset with opx := 0x04000000 }).res = 2882 ∧
    (runWord 4 { State.reset with opx := 67033962 }).res = 1218 := by decide +kernel
theorem test_mred_domain : stat (runWord 4 { State.reset with opx := 0x04000001 }) = 0x066 ∧
    stat (runWord 4 { State.reset with opx := 0xFBFFFFFF }) = 0x066 := by decide +kernel
theorem test_ntt_ramp : ((List.range 2).map fun i => (ntt (Poly.ofFn fun i => Fin.ofNat 3329 i)).get i) = [2429, 2845] := by
  decide +kernel
theorem test_ntt_x : coef (runWord 0x00000510 (withSlot 5 (mono 1) .reset)) 5 3 = 1 ∧ stat (runWord 0x00004510 .reset) = 0x026 := by
  decide +kernel
theorem test_intt_one : coef (runWord 0x00000011 (withSlot 0 nttOne .reset)) 0 0 = 1 ∧
    coef (runWord 0x00000011 (withSlot 0 nttOne .reset)) 0 2 = 0 := by decide +kernel
theorem test_vntt_bases : coef (runWord 0x00003C12 (withSlot 63 (mono 0) .reset)) 63 254 = 1 ∧
    stat (runWord 0x00003D12 .reset) = 0x036 := by decide +kernel
theorem test_vintt_bases : coef (runWord 0x00003C13 (withSlot 60 nttX .reset)) 60 1 = 1 ∧
    stat (runWord 0x00003D13 .reset) = 0x036 := by decide +kernel
theorem test_basemul_x_squared : coef (runWord 0x00204314 (withSlot 1 nttX (withSlot 2 nttX .reset))) 3 0 = 17 ∧
    coef (runWord 0x00204314 (withSlot 1 nttX (withSlot 2 nttX .reset))) 3 2 = 3312 := by decide +kernel
theorem test_padd : coef (runWord 0x00204320 (withSlot 1 (poly [3328, 1]) (withSlot 2 (poly [1, 3328]) .reset))) 3 0 = 0 ∧
    coef (runWord 0x00208220 (withSlot 2 (poly [3328]) .reset)) 2 0 = 3327 := by decide +kernel
theorem test_psub : coef (runWord 0x00204321 (withSlot 1 (poly [0, 5]) (withSlot 2 (poly [1, 5]) .reset))) 3 0 = 3328 := by
  decide +kernel
theorem test_vadd_overlap : stat (runWord 0x02882122 .reset) = 0x056 ∧ stat (runWord 0x02082022 .reset) = 0x002 := by decide +kernel
theorem test_vadd_priority : stat (runWord 0x008F7E22 .reset) = 0x036 ∧ stat (runWord 0x04803E22 .reset) = 0x026 := by decide +kernel
theorem test_dot_value : coef (runWord 0x00408C23 (withSlot 2 nttX (withSlot 4 nttX .reset))) 12 0 = 17 ∧
    stat (runWord 0x00408523 .reset) = 0x056 := by decide +kernel
theorem test_matvec : coef (runWord 0x02042824 (withSlot 17 nttOne (withSlot 33 nttX .reset))) 40 1 = 1 ∧
    stat (runWord 0x02041C24 .reset) = 0x056 := by decide +kernel
theorem test_matvect : coef (runWord 0x02042825 (withSlot 17 nttOne (withSlot 32 nttX .reset))) 41 1 = 1 ∧
    stat (runWord 0x020C6825 .reset) = 0x036 := by decide +kernel
theorem test_cbd_eta2 : coef (runWord 0x00000030 (withBytes 0 [0x0C] .reset)) 0 0 = 3327 ∧
    stat (runWord 0xFC080030 .reset) = 0x046 := by decide +kernel
theorem test_cbd_eta3 : coef (runWord 0x00004030 (withBytes 0 [0x38] .reset)) 0 0 = 3326 ∧
    coef (runWord 0x00004030 (withBytes 0 [0xC0] .reset)) 0 1 = 2 := by decide +kernel
theorem test_cbdprf_nonce : (runWord 0xFB000431 { State.reset with nonce := 255 }).nonce = 0 ∧
    (runWord 0xFF080431 { State.reset with nonce := 7 }).nonce = 7 := by decide +kernel
theorem test_sntt_byte : stat (runWord 0xFF080032 .reset) = 0x046 ∧ stat (runUnread 0x93001032 .reset) = 0x001 := by decide +kernel
/-- The chunk 01 23 45 repeated: both candidates of every chunk are accepted, and 128 chunks are enough (R503). -/
theorem test_snttb_found :
    (match sampleNTT (fun k => [0x01, 0x23, 0x45].getD (k % 3) 0) 200 with
      | .found a count => ((a.get 0).val, (a.get 1).val, count)
      | .exhausted p => (0, 0, p)) = (769, 1106, 384) := by decide +kernel
theorem test_snttb_stream : (fun t => (stat t, t.consumed.toNat, coef t 7 0)) (runWord 0xFFC00733 (withSlot 7 (poly [5]) .reset)) =
    (0x076, 6, 5) := by decide +kernel
theorem test_enc_12 : (List.range 4).map (fun a => (runWord 0x30014040 (withSlot 0 (poly [0x123, 0xABC]) .reset)).bram.read (0x600 + a)) =
    [0x23, 0xC1, 0xAB, 0x00] := by decide +kernel
theorem test_enc_operand : stat (runWord 0x00004040 (withSlot 0 (poly [16]) .reset)) = 0x066 ∧
    stat (runWord 0x00004040 (withSlot 0 (poly [15]) .reset)) = 0x002 := by decide +kernel
theorem test_dec_noncanon : (fun t => (coef t 0 1, stat t)) (runWord 0x00014041 (withBytes 0 [0xFF, 0xFF, 0xFF] .reset)) = (766, 0x402) := by
  decide +kernel
theorem test_dec_canon : coef (runWord 0x00014041 (withBytes 0 [0x23, 0xC1, 0xAB] .reset)) 0 1 = 2748 := by decide +kernel
theorem test_cmpr : coef (runWord 0x10004242 (withSlot 1 (poly [1665]) .reset)) 2 0 = 1024 ∧
    stat (runWord 0x14004242 .reset) = 0x026 := by decide +kernel
theorem test_dcmp : coef (runWord 0x10004243 (withSlot 1 (poly [2047]) .reset)) 2 0 = 3327 ∧
    stat (runWord 0x10004243 (withSlot 1 (poly [2048]) .reset)) = 0x066 := by decide +kernel
theorem test_hash_byte : stat (runWord 0x08000050 { State.reset with hlen := 8193 }) = 0x046 ∧
    stat (runWord 0x10000050 .reset) = 0x026 := by decide +kernel
theorem test_hash_empty_output : (runWord 0x08000050 { State.reset with hlen := 3, hdst := 0x1FFF, holen := 0 }).bram = [] ∧
    stat (runWord 0x08000050 { State.reset with hlen := 3, hdst := 0x1FFF, holen := 0 }) = 0x002 := by decide +kernel
theorem test_cteq : (runWord 0x51 (withBytes 3 [7] { State.reset with hlen := 4, hdst := 8 })).res = 0 ∧
    (runWord 0x51 { State.reset with hlen := 0, hsrc := 0x1FFF, hdst := 5 }).res = 1 := by decide +kernel
theorem test_kpke_keygen : stat (runWord 0x160 .reset) = 0x026 ∧ stat (runUnread 0x60 .reset) = 0x001 := by decide +kernel
theorem test_kpke_enc : stat (runWord 0x161 .reset) = 0x026 ∧ stat (runUnread 0x61 .reset) = 0x001 := by decide +kernel
theorem test_kpke_dec : stat (runWord 0x62 .reset) = 0x002 ∧ coef (runWord 0x62 (withSlot 3 (poly [7]) .reset)) 3 0 = 0 := by
  decide +kernel
theorem test_mlkem_keygen : stat (runWord 0x168 .reset) = 0x026 ∧ stat (runUnread 0x68 .reset) = 0x001 := by decide +kernel
theorem test_mlkem_encaps : stat (runWord 0x169 .reset) = 0x026 ∧ stat (runUnread 0x69 .reset) = 0x001 := by decide +kernel
theorem test_mlkem_decaps : stat (runWord 0x16A .reset) = 0x026 ∧ stat (runUnread 0x6A .reset) = 0x001 := by decide +kernel
theorem test_wipe : coef (runWord 0x7F (withSlot 3 (poly [0, 0, 0, 0, 0, 0, 0, 5]) (withBytes 0x100 [0xAA] .reset))) 3 7 = 0 ∧
    (runWord 0x7F (withSlot 3 (poly [5]) (withBytes 0x100 [0xAA] .reset))).bram.read 0x100 = 0 := by decide +kernel
/-- irq = CTRL.IE & STATUS.DONE (R708). -/
theorem test_irq : (runWord 0 (hostWrite 0x004 1 0xF .reset)).irq = true ∧ (runWord 0 .reset).irq = false := by decide +kernel
/-- 95_test_vectors.md section 2.9: partial and zero strobes of OPA; R205, R116 for CMD while busy. -/
theorem test_partial_strobe : (hostWrite 0x010 7 3 .reset).status.toWord = 0x100 ∧ (hostWrite 0x010 7 3 .reset).opa = 0 ∧
    (hostWrite 0x010 7 0 .reset).status.toWord = 0x000 ∧ (hostWrite 0x00C 0x7F 3 .reset).status.toWord = 0x100 := by decide +kernel
/-- R862: a program of one operand write ends after it, with no command running. -/
theorem test_end_state : (runToEnd 1 { State.reset with inputs := [.write 0x010 7 0xF] }).map (·.opa) = some 7 ∧
    (runToEnd 1 (State.reset.withFetchWord 32 0)).map (·.status.toWord) = some 0x002 ∧
    (runToEnd 0 (State.reset.withFetchWord 32 0)) = none := by decide +kernel
theorem test_illegal : stat (runWord 0x05 .reset) = 0x016 := by decide +kernel

/-! ## Witnesses: concrete states and operands that meet the hypotheses of each statement -/

/-- The reset state with the command word `w` running and ready to complete. -/
def running (w : Nat) : State := State.reset.withFetchWord 32 w

theorem witness_EncodeInvertsDecode : ∃ w i, decode w = .ok i := ⟨0x00000510, .ntt 0 5, by decide⟩

theorem witness_IllFormedExactlyUnderMask_mask : ∃ r, opcodeRow? 0x00000100 = some r ∧ 0x00000100#32 &&& r.mustBeZero ≠ 0 :=
  ⟨⟨"NOP", 0x00#8, 0xFFFFFF00#32⟩, by decide, by decide⟩
theorem witness_IllFormedExactlyUnderMask_codes : reservedCode 0x00018040 ∧ reservedCode 0x14000042 ∧ reservedCode 0x10000050 ∧
    ¬reservedCode 0x00014040 ∧ ¬reservedCode 0x10000042 ∧ ¬reservedCode 0x0C000050 := by
  unfold reservedCode
  decide

theorem witness_UnassignedOpcodeIsIllegal : ∃ s : State, s.status.busy = true ∧ s.busyLeft = 0 ∧ opcodeRow? s.cmd = none :=
  ⟨running 0x05, rfl, rfl, by decide⟩

theorem witness_IllFormedWordIsParam_mask : ∃ (s : State) (r : OpcodeRow), s.status.busy = true ∧ s.busyLeft = 0 ∧
    opcodeRow? s.cmd = some r ∧ (s.cmd &&& r.mustBeZero ≠ 0 ∨ reservedCode s.cmd) :=
  ⟨running 0x100, ⟨"NOP", 0x00#8, 0xFFFFFF00#32⟩, rfl, rfl, by decide, .inl (by decide)⟩
theorem witness_IllFormedWordIsParam_code : ∃ (s : State) (r : OpcodeRow), s.status.busy = true ∧ s.busyLeft = 0 ∧
    opcodeRow? s.cmd = some r ∧ (s.cmd &&& r.mustBeZero ≠ 0 ∨ reservedCode s.cmd) :=
  ⟨running 0x18040, ⟨"ENC", 0x40#8, 0x00060000#32⟩, rfl, rfl, by decide, .inr witness_IllFormedExactlyUnderMask_codes.1⟩

theorem witness_StepRunsLatchedCommand_core : ∃ (s : State) (i : Instr), s.status.busy = true ∧ s.busyLeft = 0 ∧
    decode s.cmd = .ok i := ⟨running 0x510, .ntt 0 5, rfl, rfl, by decide⟩
theorem witness_StepRunsLatchedCommand_host : ∃ s t : State, s.status.busy = false ∧ t.status.busy = true ∧ 0 < t.busyLeft :=
  ⟨.reset, { running 0 with busyLeft := 1 }, rfl, rfl, Nat.one_pos⟩

theorem reset_inv : State.reset.Inv := by
  refine ⟨?_, ?_, ?_, ?_, ?_, ?_⟩ <;> simp [State.reset, Memory.wf]

theorem running_inv (w : Nat) : (running w).Inv := by
  refine ⟨?_, ?_, ?_, ?_, ?_, ?_⟩ <;>
    simp [running, State.withFetchWord, acceptCommand, Status.accept, State.reset, Memory.wf]

theorem witness_StepKeepsInvariant : ∃ s t : State, s.Inv ∧ step s = .next t :=
  ⟨running 0, _, running_inv 0, (step_next (running 0)).choose_spec⟩

/-- The premise of EncPacksCoefficients, HashWritesDigest, the sequencer statements, ByteWindow and DecapsReportsNothing. -/
theorem witness_canonical : State.reset.bram.wf = true ∧ (withBytes 0x1280 [1] .reset).bram.wf = true := by decide +kernel

/-- With no chunk examined no stream has yielded 256 values: the third outcome of SNTT and of the sequencer statements. -/
theorem witness_notReady (rho : List Byte) : ¬matrixReady 0 rho := fun h => by
  have := h 0 0 (by decide) (by decide)
  simp [accepted] at this

/-- The streams are free constants, so no run can be shown to yield 256 values; but the premise is met by, for one, the
all-zero stream, whose first 128 chunks yield 256 values. -/
theorem witness_ready (h : ∀ x k, Config.shake128 x k = 0) (rho : List Byte) : matrixReady 128 rho := by
  intro i j _ _
  have hs : stream rho i j = fun _ => 0 := funext fun k => h _ k
  rw [hs]
  decide +kernel

/-- SNTTB's two outcomes, at 256 and at 255 values. -/
theorem witness_SnttbSamplesByteRam : 256 ≤ (accepted (fun _ => 0) 128).length ∧ (accepted (fun k => if k = 0 ∨ k = 1 then 0xFF else 0) 128).length = 255 := by
  decide +kernel

theorem reset_slot (k : Nat) (hk : k < 64) : State.reset.slot k = Vector.replicate 256 0 := by
  simp only [State.slot, State.reset, Vector.toList_replicate, List.getD, List.getElem?_replicate, hk, if_true, Option.getD_some]

theorem reset_coef (k i : Nat) (hk : k < 64) (hi : i < 256) : (State.reset.slot k).get i = 0 := by
  rw [reset_slot k hk]
  simp only [Poly.get, Vector.toList_replicate, List.getD, List.getElem?_replicate, hi, if_true, Option.getD_some]

/-- The last address at which a 12-bit polynomial fits. -/
theorem witness_EncDecRestores : State.reset.bram.wf = true ∧ (5#3).toNat ≤ 5 ∧ (7808#13).toNat + 32 * 12 ≤ 8192 ∧
    ∀ i, i < 256 → ((State.reset.slot (0#6).toNat).get i).val < 2 ^ 12 :=
  ⟨rfl, by decide, by decide, fun i hi => by rw [reset_coef _ i (by decide) hi]; decide⟩

theorem witness_CompressionRoundTrips : (4#3).toNat ≤ 4 ∧ ∀ i, i < 256 → ((State.reset.slot (0#6).toNat).get i).val < 2 ^ 11 :=
  ⟨by decide, fun i hi => by rw [reset_coef _ i (by decide) hi]; decide⟩

theorem witness_CompletionOutcomes : ∃ s : State, s.status.busy = true ∧ s.busyLeft = 0 := ⟨running 0x6A, rfl, rfl⟩

theorem witness_DoneOnlyByCompletion_rise : ∃ s t : State, step s = .next t ∧ s.status.done = false ∧ t.status.done = true :=
  ⟨running 0, (running 0).complete (.done (running 0)), rfl, rfl, rfl⟩
theorem witness_DoneOnlyByCompletion_fall : ∃ s t : State, step s = .next t ∧ s.status.done = true ∧ t.status.done = false :=
  ⟨{ State.reset with status := State.reset.status.succeed, inputs := [.write 0x008 0x002 0xF] }, _, rfl, rfl, rfl⟩

theorem witness_RunningCommandIsUndisturbed : (running 0).status.busy = true ∧ quiet (.write 0x010 5 0xF) ∧ quiet (.read 0x008) :=
  ⟨rfl, by simp [quiet], trivial⟩

/-- A misaligned access in a register, in the reserved register space and in unmapped space. -/
theorem witness_MisalignedAccessRefused_regions : (hostRead 0x00009 .reset).2.status.toWord = 0x100 ∧
    (hostWrite 0x00039 1 0xF .reset).status.toWord = 0x100 ∧ (hostWrite 0x22001 1 0xF .reset).status.toWord = 0x100 := by
  decide +kernel
theorem witness_MisalignedAccessRefused : (0x20001#18).toNat % 4 ≠ 0 ∧ (0x3#18).toNat % 4 ≠ 0 := by decide

/-- The first and last empty addresses of the three empty ranges of RegisterReads and RegisterWrites. -/
theorem witness_empty_ranges : [0x00038#18, 0x0FFFC#18, 0x22000#18, 0x2FFFC#18, 0x30600#18, 0x3FFFC#18].all (fun a =>
    decide (regionOf a = .reserved) || decide (regionOf a = .unmapped)) = true ∧
    regionOf 0x00034 = .reg .holen ∧ regionOf 0x21FFC = .bram 8188 ∧ regionOf 0x305FC = .rom 383 := by decide
theorem witness_RegisterWrites : State.reset.status.busy = false ∧ (running 0).status.busy = true ∧
    (0x1#32).getLsbD 1 = false ∧ (3#4 ≠ 0 ∧ 3#4 ≠ 0xF) := ⟨rfl, rfl, by decide, by decide⟩
/-- The clauses of RegisterWrites meet at 0x00038, 0x0FFFC, 0x22000 and 0x3FFFC: each address falls under one of them. -/
theorem witness_RegisterWrites_edges : (hostWrite 0x00034 1 1 .reset).status.accerr = true ∧
    (hostWrite 0x00038 1 1 .reset).status.accerr = false ∧ (hostWrite 0x0FFFC 1 1 .reset).status.accerr = false ∧
    (hostWrite 0x22000 1 1 .reset).status.accerr = false ∧ (hostWrite 0x3FFFC 1 1 .reset).status.accerr = false ∧
    (hostWrite 0x00C 1 1 .reset).status.accerr = true ∧ (hostWrite 0x00C 1 1 (running 0)).status.accerr = true ∧
    (hostWrite 0x00C 1 1 (running 0)).status.overrun = true := by decide +kernel

/-- The slot window's last coefficient, written with q − 1 and with q (R212, R213). -/
theorem witness_SlotWindow : coef (hostWrite 0x1FFFC 3328 0xF .reset) 63 255 = 3328 ∧
    (hostWrite 0x1FFFC 3329 0xF .reset).status.accerr = true := by decide +kernel
theorem witness_SlotWindow_busy : (running 0).status.busy = true ∧ (hostRead 0x1FFFC (running 0)).1 = 0 ∧
    (hostRead 0x1FFFC (running 0)).2.status.accerr = true := by decide +kernel

/-- The byte RAM window's last word, two lanes written (R220). -/
theorem witness_ByteWindow : (hostRead 0x21FFC (hostWrite 0x21FFC 0x44332211 0x5 .reset)).1 = 0x00330011 := by decide +kernel

theorem witness_ByteWindow_busy : (running 0).status.busy = true ∧ (hostRead 0x21FFC (running 0)).1 = 0 ∧
    (hostRead 0x21FFC (running 0)).2.status.accerr = true ∧ (hostWrite 0x21FFC 1 1 (running 0)).status.accerr = true := by
  decide +kernel

/-- The first and last word of each ROM table (R230, values of R140). -/
theorem witness_RomWindow : [0x30000#18, 0x301FC#18, 0x30200#18, 0x303FC#18, 0x30400#18, 0x305FC#18].map
    (fun a => (hostRead a (running 0)).1.toNat) = [1, 2154, 17, 1175, 0, 127] := by decide +kernel

theorem witness_CmdWrite : State.reset.status.busy = false ∧ (running 0).status.busy = true := ⟨rfl, rfl⟩
theorem witness_SoftResetIsReset : (2#32).getLsbD 1 = true ∧ (3#32).getLsbD 1 = true := by decide

theorem witness_CommandCompletesIffDefined : (running 0x3F7).status.busy = true ∧ (∀ op ∈ (running 0).inputs, quiet op) ∧
    ∀ i, decode (running 0).cmd = .ok i → definedWithin 0 (running 0) i := by
  refine ⟨rfl, (fun op h => by simp [running, State.withFetchWord, acceptCommand, State.reset] at h), fun i h => ?_⟩
  have : (Except.ok (.nop 0) : Except DecodeError Instr) = .ok i := h
  cases this
  trivial

/-- An SNTT whose stream has not been examined is not defined yet. -/
theorem witness_CommandCompletesIffDefined_not : (running 0xFA024032).status.busy = true ∧ (running 0xFA024032).inputs = [] ∧
    ∃ i, decode (running 0xFA024032).cmd = .ok i ∧ ¬definedWithin 0 (running 0xFA024032) i := by
  refine ⟨rfl, rfl, .sntt 0x1F40 0 2 1 0, rfl, ?_⟩
  simp [definedWithin, accepted]

/-- With, for one, the all-zero stream, that SNTT is defined within 128 chunks. -/
theorem witness_CommandCompletesIffDefined_sampling (h : ∀ x k, Config.shake128 x k = 0) :
    ∀ i, decode (running 0xFA024032).cmd = .ok i → definedWithin 128 (running 0xFA024032) i := by
  intro i hi
  have : (Except.ok (.sntt 0x1F40 0 2 1 0) : Except DecodeError Instr) = .ok i := hi
  cases this
  refine .inr (.inr ?_)
  have hs : ∀ rho i j, stream rho i j = fun _ => 0 := fun rho i j => funext fun k => h _ k
  rw [hs]
  decide +kernel

/-- A read and a write that a host step takes from the queue. -/
theorem witness_StepRunsLatchedCommand_access : (applyHostOp (.read 0x000) .reset).rdata = 0x4D4C4B34 ∧
    (applyHostOp (.write 0x010 7 0xF) .reset).opa = 7 := by decide

theorem witness_DecapsReportsNothing : ∃ m : Memory, State.reset.bram.wf = true ∧ m.wf = true ∧ m ≠ State.reset.bram ∧
    ∀ a, ¬within 0x1280 1568 a → m.read a = State.reset.bram.read a := by
  refine ⟨[(0x1280, 1)], rfl, by decide, by simp [State.reset], fun a h => ?_⟩
  have : ¬(0x1280 = a) := fun e => h ⟨by omega, by omega⟩
  simp [Memory.read, State.reset, this]

end Sys2Proof.Tests
end

section
/-! PROOF. The end states of a completion as the statements write them: one lemma per way a command ends, shared by every
command that writes one slot. -/

namespace Sys2Proof.Proofs

open Sys2Proof Sys2Proof.Machine Sys2Proof.Spec

theorem complete_done_eq_succeeded (s t : State) : s.complete (.done t) = succeeded t := rfl

theorem complete_error_eq_failed (s : State) (e : CmdError) (t : State) : s.complete (.error e t) = failed e.code t := rfl

theorem complete_pending_eq_notYet (s : State) : s.complete .pending = notYet s := rfl

@[simp] theorem slot_succeeded (t : State) (n : Nat) : (succeeded t).slot n = t.slot n := rfl
@[simp] theorem bram_succeeded (t : State) : (succeeded t).bram = t.bram := rfl
@[simp] theorem noncanon_succeeded (t : State) : (succeeded t).status.noncanon = t.status.noncanon := rfl

/-- A command that ends by writing one slot leaves that slot with the written Poly and everything else as it was. -/
theorem slotsBecome_setSlot (s : State) (rd : Slot) (p : Poly) :
    slotsBecome s (fun n => if n = rd.toNat then p else s.slot n) (s.complete (.done (s.setSlot rd.toNat p))) :=
  ⟨rfl, fun n _ => by rw [State.slot_complete_done, State.slot_setSlot s rd.isLt]⟩

theorem inByteRam_eq_false_iff (a len : Nat) : inByteRam a len = false ↔ 8192 < a + len := by
  simp [inByteRam]

end Sys2Proof.Proofs
end

section
/-! PROOF. Bits of numbers and of byte strings: the machine's `bitsToNat`, `countBits` and `bitAt` against the sums and the
quotients in which the statements are written (R12, R19, R22), and the twiddle exponents (R13, R140). -/

namespace Sys2Proof.Proofs

open Sys2Proof Sys2Proof.Machine Sys2Proof.Spec

/-- Bit k of a byte string, as the quotient of R12. -/
theorem toNat_bitAt (B : List Byte) (k : Nat) : (bitAt B k).toNat = bit B k := by
  simp only [bitAt, bit, ← BitVec.testBit_toNat, Nat.toNat_testBit]

theorem countBits_eq_sum (n : Nat) (f : Nat → Bool) : countBits n f = ∑ j ∈ Finset.range n, (f j).toNat := by
  induction n with
  | zero => rfl
  | succ n ih => rw [countBits, Finset.sum_range_succ, ih]; cases f n <;> rfl

theorem countBits_le (n : Nat) (f : Nat → Bool) : countBits n f ≤ n := by
  induction n with
  | zero => exact Nat.le_refl 0
  | succ n ih => rw [countBits]; split <;> omega

theorem bitsToNat_lt (n : Nat) (f : Nat → Bool) : bitsToNat n f < 2 ^ n := by
  induction n with
  | zero => exact Nat.one_pos
  | succ n ih => rw [bitsToNat, Nat.pow_succ]; split <;> omega

/-- Bit k of the number packed from `f` is `f k`. -/
theorem testBit_bitsToNat (n : Nat) (f : Nat → Bool) (k : Nat) :
    (bitsToNat n f).testBit k = (decide (k < n) && f k) := by
  induction n with
  | zero => simp [bitsToNat]
  | succ n ih =>
    have hlt := bitsToNat_lt n f
    have hstep : bitsToNat (n + 1) f = 2 ^ n * (f n).toNat + bitsToNat n f := by
      rw [bitsToNat]; cases f n <;> simp [Nat.add_comm]
    rw [hstep, Nat.testBit_two_pow_mul_add _ hlt, ih]
    rcases Nat.lt_trichotomy k n with h | rfl | h
    · simp [h, Nat.lt_succ_of_lt h]
    · cases hf : f k <;> simp
    · obtain ⟨m, rfl⟩ := Nat.exists_eq_add_of_lt h
      rw [show n + m + 1 - n = m + 1 by omega]
      cases f n <;> simp [show ¬ n + m + 1 < n by omega, Nat.testBit_succ]

/-- Packing the low d bits of a number gives its residue mod 2^d. -/
theorem bitsToNat_testBit (d v : Nat) : bitsToNat d v.testBit = v % 2 ^ d :=
  Nat.eq_of_testBit_eq fun k => by rw [testBit_bitsToNat, Nat.testBit_mod_two_pow]

theorem bitsToNat_congr {n : Nat} {f g : Nat → Bool} (h : ∀ k, k < n → f k = g k) : bitsToNat n f = bitsToNat n g :=
  Nat.eq_of_testBit_eq fun k => by
    rw [testBit_bitsToNat, testBit_bitsToNat]
    by_cases hk : k < n
    · rw [h k hk]
    · simp [hk]

/-- Storing a natural number in a cell. -/
theorem narrow_eq_ofNat (n : Nat) : narrow (n : Int) = Fin.ofNat 3329 n := rfl

/-! ## Twiddles -/

theorem bitrev7_eq_reversed (k : Nat) : bitrev7 k = reversed k := by
  have bit_term : ∀ b e, (if k.testBit b then 2 ^ e else 0) = k / 2 ^ b % 2 * 2 ^ e := fun b e => by
    rw [← Nat.toNat_testBit]; cases k.testBit b <;> simp
  simp only [bitrev7, reversed, bit_term, Finset.sum_range_succ, Finset.sum_range_zero]
  rfl

theorem zeta_eq_zetaPower (k : Nat) : zeta k = zetaPower k := by rw [zeta, zetaPower, bitrev7_eq_reversed]

theorem gamma_eq_gammaPower (k : Nat) : gamma k = gammaPower k := by rw [gamma, gammaPower, bitrev7_eq_reversed]

end Sys2Proof.Proofs
end

section
/-! PROOF. O20 (BASEMUL) and O25 (CBD). -/

namespace Sys2Proof.Proofs

open Sys2Proof Sys2Proof.Machine Sys2Proof.Spec
open scoped Fin.CommRing

/-- The machine's pair product is the one of R17 in ℤ_q. -/
theorem baseMul_eq_baseMulZq (a b : Poly) : baseMul a b = baseMulZq a b := by
  refine Poly.ofFn_congr fun n _ => ?_
  simp only [modAdd_eq_add, modMul_eq_mul, gamma_eq_gammaPower]
  by_cases h : n % 2 = 0
  · rw [if_pos h, if_pos h, show 2 * (n / 2) = n by omega, mul_assoc]
  · rw [if_neg h, if_neg h, show 2 * (n / 2) = n - 1 by omega, show n - 1 + 1 = n by omega]

/-- Settles O20: the Barrett datapath computes in ℤ_q, and both sources are read before rd is written. -/
theorem basemulMultipliesPairs : Obligations.BasemulMultipliesPairs := by
  intro zero rs2 rs1 rd s
  refine ⟨_, rfl, ?_⟩
  by_cases hz : zero ≠ 0
  · rw [if_pos hz, if_pos hz, complete_error_eq_failed]; rfl
  · rw [if_neg hz, if_neg hz, baseMul_eq_baseMulZq]
    exact slotsBecome_setSlot s rd _

/-- The machine's signed difference of popcounts is the difference shifted by q. -/
theorem samplePolyCBD_eq_cbdPoly {eta : Nat} (heta : eta ≤ 3329) (B : List Byte) : samplePolyCBD B eta = cbdPoly B eta := by
  refine Poly.ofFn_congr fun i _ => ?_
  simp only [← toNat_bitAt, ← countBits_eq_sum]
  have hy := countBits_le eta fun j => bitAt B (2 * eta * i + eta + j)
  generalize countBits eta (fun j => bitAt B (2 * eta * i + j)) = x at *
  generalize countBits eta (fun j => bitAt B (2 * eta * i + eta + j)) = y at *
  have hxy : ((x : Int) - (y : Int)) % 3329 = (((x + 3329 - y) % 3329 : Nat) : Int) := by omega
  rw [hxy, narrow_eq_ofNat]
  exact Fin.ext (Nat.mod_mod _ _)

/-- Settles O25. -/
theorem cbdSamplesBytes : Obligations.CbdSamplesBytes := by
  intro addr zero eta rd s
  refine ⟨_, rfl, ?_⟩
  simp only [inByteRam_eq_false_iff, etaOf_eq]
  by_cases hz : zero ≠ 0
  · rw [if_pos hz, if_pos hz]; rfl
  · rw [if_neg hz, if_neg hz]
    by_cases hr : 8192 < addr.toNat + 64 * (2 + eta.toNat)
    · rw [if_pos hr, if_pos hr]; rfl
    · rw [if_neg hr, if_neg hr, samplePolyCBD_eq_cbdPoly (by have := eta.isLt; omega)]
      exact slotsBecome_setSlot s rd _

end Sys2Proof.Proofs
end

section
/-! PROOF. O27 (SNTT) and O28 (SNTTB): the loop of SampleNTT keeps, after c chunks, the first 256 of the values accepted from
those chunks, and stops at the least c where there are 256 of them (R23). -/

namespace Sys2Proof.Proofs

open Sys2Proof Sys2Proof.Machine Sys2Proof.Spec

/-- What the loop holds when the values of `l` have been accepted: the first 256 of them, as Coefs. -/
def firstCoefs (l : List Nat) : List Coef := (l.take 256).map (Fin.ofNat 3329)

/-- The two candidates of chunk c (R23). -/
def chunkCandidates (S : Nat → Byte) (c : Nat) : List Nat :=
  [(S (3 * c)).toNat + 256 * ((S (3 * c + 1)).toNat % 16), (S (3 * c + 1)).toNat / 16 + 16 * (S (3 * c + 2)).toNat]

theorem accepted_succ (S : Nat → Byte) (c : Nat) :
    accepted S (c + 1) = accepted S c ++ (chunkCandidates S c).filter fun d => decide (d < 3329) := by
  simp only [accepted, List.range_succ, List.flatMap_append, List.filter_append, List.flatMap_singleton, chunkCandidates]

theorem length_accepted_mono (S : Nat → Byte) {m n : Nat} (h : m ≤ n) : (accepted S m).length ≤ (accepted S n).length := by
  induction h with
  | refl => exact Nat.le_refl _
  | step _ ih => rw [accepted_succ, List.length_append]; omega

theorem length_firstCoefs (l : List Nat) : (firstCoefs l).length = min 256 l.length := by simp [firstCoefs]

theorem length_firstCoefs_lt_iff (l : List Nat) : (firstCoefs l).length < 256 ↔ l.length < 256 := by
  rw [length_firstCoefs]; omega

/-- One candidate: it joins the values accepted when it is below q. -/
theorem acceptCandidate_firstCoefs (l : List Nat) (d : Nat) :
    acceptCandidate (firstCoefs l) d = firstCoefs (l ++ [d].filter fun d => decide (d < 3329)) := by
  by_cases hd : d < 3329
  · by_cases hl : l.length < 256
    · rw [acceptCandidate, if_pos ⟨hd, (length_firstCoefs_lt_iff l).2 hl⟩]
      simp [firstCoefs, hd, hl, List.take_of_length_le (Nat.le_of_lt hl), narrow_eq_ofNat]
    · rw [acceptCandidate, if_neg fun h => hl ((length_firstCoefs_lt_iff l).1 h.2)]
      simp [firstCoefs, List.take_append_of_le_length (Nat.le_of_not_lt hl)]
  · rw [acceptCandidate, if_neg fun h => hd h.1]
    simp [hd]

/-- One chunk of the stream. -/
theorem acceptChunk_firstCoefs (S : Nat → Byte) (c : Nat) :
    acceptChunk (firstCoefs (accepted S c)) (S (3 * c)) (S (3 * c + 1)) (S (3 * c + 2)) = firstCoefs (accepted S (c + 1)) := by
  rw [acceptChunk, acceptCandidate_firstCoefs, acceptCandidate_firstCoefs, List.append_assoc, ← List.filter_append,
    accepted_succ]
  rfl

/-- The Poly the loop ends with. -/
theorem ofFn_firstCoefs (S : Nat → Byte) (k : Nat) (h : 256 ≤ (accepted S k).length) :
    (Poly.ofFn fun i => (firstCoefs (accepted S k)).getD i 0) = sampled S k := by
  refine Poly.ofFn_congr fun i hi => ?_
  have hk : i < (accepted S k).length := by omega
  simp [firstCoefs, List.getD, hi, hk]

/-- The loop from chunk c on: it ends at the least k ≥ c whose chunks hold 256 values, or runs out of chunks. -/
theorem sampleLoop_firstCoefs (S : Nat → Byte) (avail c : Nat) :
    (∃ k, c ≤ k ∧ k ≤ c + avail ∧ 256 ≤ (accepted S k).length ∧
      (∀ m, c ≤ m → m < k → (accepted S m).length < 256) ∧
      sampleLoop S avail (3 * c) (firstCoefs (accepted S c)) = .found (sampled S k) (3 * k)) ∨
    ((accepted S (c + avail)).length < 256 ∧
      sampleLoop S avail (3 * c) (firstCoefs (accepted S c)) = .exhausted (3 * (c + avail))) := by
  induction avail generalizing c with
  | zero =>
    by_cases h : (accepted S c).length < 256
    · exact .inr ⟨h, by rw [sampleLoop, if_pos ((length_firstCoefs_lt_iff _).2 h)]; rfl⟩
    · refine .inl ⟨c, Nat.le_refl c, Nat.le_refl c, Nat.le_of_not_lt h, fun m _ _ => by omega, ?_⟩
      rw [sampleLoop, if_neg (mt (length_firstCoefs_lt_iff _).1 h), ofFn_firstCoefs S c (Nat.le_of_not_lt h)]
  | succ avail ih =>
    by_cases h : (accepted S c).length < 256
    · rw [sampleLoop, if_pos ((length_firstCoefs_lt_iff _).2 h), acceptChunk_firstCoefs,
        show c + (avail + 1) = c + 1 + avail by omega]
      rcases ih (c + 1) with ⟨k, hck, hk, hlen, hmin, hloop⟩ | hex
      · refine .inl ⟨k, by omega, hk, hlen, fun m hcm hmk => ?_, hloop⟩
        rcases Nat.eq_or_lt_of_le hcm with rfl | hcm
        · exact h
        · exact hmin m hcm hmk
      · exact .inr hex
    · refine .inl ⟨c, Nat.le_refl c, Nat.le_add_right _ _, Nat.le_of_not_lt h, fun m _ _ => by omega, ?_⟩
      rw [sampleLoop, if_neg (mt (length_firstCoefs_lt_iff _).1 h), ofFn_firstCoefs S c (Nat.le_of_not_lt h)]

/-- When n chunks hold 256 values below q, SampleNTT finds the sample of the least number of chunks that do. -/
theorem sampleNTT_of_ready {S : Nat → Byte} {n : Nat} (h : 256 ≤ (accepted S n).length) :
    ∃ k, k ≤ n ∧ shortest S k ∧ sampleNTT S n = .found (sampled S k) (3 * k) := by
  rcases sampleLoop_firstCoefs S n 0 with ⟨k, -, hk, hlen, hmin, hloop⟩ | ⟨hlt, -⟩
  · exact ⟨k, by omega, ⟨hlen, fun m hm => hmin m (Nat.zero_le m) hm⟩, hloop⟩
  · rw [Nat.zero_add] at hlt; omega

/-- When they do not, SampleNTT reads all n chunks. -/
theorem sampleNTT_of_not_ready {S : Nat → Byte} {n : Nat} (h : ¬256 ≤ (accepted S n).length) :
    sampleNTT S n = .exhausted (3 * n) := by
  rcases sampleLoop_firstCoefs S n 0 with ⟨k, -, hk, hlen, -, -⟩ | ⟨-, hloop⟩
  · have := length_accepted_mono S (show k ≤ n by omega)
    omega
  · rwa [Nat.zero_add] at hloop

theorem xofA_eq_stream (rho : List Byte) (i j : Nat) : xofA rho i j = stream rho i j := by
  simp [xofA, stream, byteOf]

/-- Settles O27. -/
theorem snttSamplesXofStream : Obligations.SnttSamplesXofStream := by
  intro addr zero col row rd s
  refine ⟨_, rfl, ?_⟩
  simp only [inByteRam_eq_false_iff, xofA_eq_stream]
  by_cases hz : zero ≠ 0
  · rw [if_pos hz, if_pos hz]; rfl
  · rw [if_neg hz, if_neg hz]
    by_cases hr : 8192 < addr.toNat + 32
    · rw [if_pos hr, if_pos hr]; rfl
    · rw [if_neg hr, if_neg hr]
      by_cases h : 256 ≤ (accepted (stream (s.bram.readBytes addr.toNat 32) row.toNat col.toNat) s.chunks).length
      · obtain ⟨k, hk, hshort, hfound⟩ := sampleNTT_of_ready h
        rw [if_pos h, hfound]
        exact ⟨k, hk, hshort, rfl, fun n _ => State.slot_setSlot s rd.isLt _ n⟩
      · rw [if_neg h, sampleNTT_of_not_ready h]
        exact complete_pending_eq_notYet s

/-- Settles O28. -/
theorem snttbSamplesByteRam : Obligations.SnttbSamplesByteRam := by
  intro addr zero rd s
  refine ⟨_, rfl, ?_⟩
  dsimp only
  by_cases hz : zero ≠ 0
  · rw [if_pos hz, if_pos hz]; rfl
  · rw [if_neg hz, if_neg hz]
    by_cases h : 256 ≤ (accepted (fun k => s.bram.read (addr.toNat + k)) ((8192 - addr.toNat) / 3)).length
    · obtain ⟨k, hk, hshort, hfound⟩ := sampleNTT_of_ready h
      rw [if_pos h, hfound]
      exact ⟨k, hk, hshort, rfl, fun n _ => State.slot_setSlot s rd.isLt _ n⟩
    · rw [if_neg h, sampleNTT_of_not_ready h]
      exact complete_error_eq_failed s .stream _

end Sys2Proof.Proofs
end

section
/-! PROOF. O29 (ENC) and O44 (ENC then DEC): bit i·d + k of the packed string is bit k of coefficient i (R19), so unpacking it
gives every coefficient that fits in d bits back. -/

namespace Sys2Proof.Proofs

open Sys2Proof Sys2Proof.Machine Sys2Proof.Spec

/-! ## The packed string -/

/-- Bit n of ByteEncode_d(F) is bit n mod d of coefficient ⌊n/d⌋ (R19). -/
theorem bitAt_byteEncode (d : Nat) (F : Poly) {n : Nat} (hn : n < 256 * d) :
    bitAt (byteEncode d F) n = (F.get (n / d)).val.testBit (n % d) := by
  have hbyte : n / 8 < 32 * d := by omega
  have hbit : n % 8 < 8 := Nat.mod_lt _ (by decide)
  simp only [bitAt, byteEncode, List.getD, List.getElem?_map, List.getElem?_range hbyte, Option.map_some, Option.getD_some,
    ← BitVec.testBit_toNat, BitVec.toNat_ofNat]
  rw [Nat.mod_eq_of_lt (bitsToNat_lt 8 _), testBit_bitsToNat, decide_eq_true hbit, Bool.true_and, Nat.div_add_mod]

/-- The same bit, addressed by coefficient. -/
theorem bitAt_byteEncode_coef {d i k : Nat} (F : Poly) (hi : i < 256) (hk : k < d) :
    bitAt (byteEncode d F) (i * d + k) = (F.get i).val.testBit k := by
  have hn : i * d + k < 256 * d := by
    calc i * d + k < (i + 1) * d := by rw [Nat.succ_mul]; omega
      _ ≤ 256 * d := Nat.mul_le_mul_right d hi
  rw [bitAt_byteEncode d F hn, Nat.mul_comm i d, Nat.mul_add_div (by omega), Nat.div_eq_of_lt hk, Nat.mul_add_mod,
    Nat.mod_eq_of_lt hk, Nat.add_zero]

/-- Unpacking the packed string gives the low d bits of every coefficient. -/
theorem byteDecode_byteEncode (d : Nat) (F : Poly) {i : Nat} (hi : i < 256) :
    byteDecode d (byteEncode d F) i = (F.get i).val % 2 ^ d := by
  rw [byteDecode, bitsToNat_congr fun k hk => bitAt_byteEncode_coef F hi hk, bitsToNat_testBit]

theorem decodePoly_byteEncode {d : Nat} {F : Poly} (h : ∀ i, i < 256 → (F.get i).val < 2 ^ d) :
    decodePoly d (byteEncode d F) = F := by
  refine Poly.ext_get fun i hi => Fin.ext ?_
  have hlt := (F.get i).isLt
  rw [decodePoly, Poly.get_ofFn _ hi, byteDecode_byteEncode d F hi, Nat.mod_eq_of_lt (h i hi), narrow_natCast]
  omega

/-- Packed coefficients are canonical. -/
theorem decodeNoncanon_byteEncode (F : Poly) : decodeNoncanon (byteEncode 12 F) = false := by
  simp only [decodeNoncanon, List.any_eq_false, List.mem_range, decide_eq_true_eq]
  intro i hi
  rw [byteDecode_byteEncode 12 F hi]
  have := (F.get i).isLt
  omega

/-- A byte string read back from where it was written. -/
theorem readBytes_writeBytes {m : Memory} (h : m.wf = true) {a : Nat} {B : List Byte} (ha : a + B.length ≤ 8192) :
    (m.writeBytes a B).readBytes a B.length = B := by
  refine List.ext_getElem (Memory.length_readBytes _ _ _) fun k hk _ => ?_
  rw [Memory.length_readBytes] at hk
  have hget := Memory.getD_readBytes (m.writeBytes a B) a B.length k hk
  rw [Memory.read_writeBytes h ha, if_pos (by omega), show a + k - a = k by omega] at hget
  simpa [List.getD, hk] using hget

/-! ## The commands -/

theorem widthOf_of_legal {dcode : BitVec 3} (h : dcode.toNat ≤ 5) :
    widthOf dcode = some ([1, 4, 5, 10, 11, 12].getD dcode.toNat 0) := by
  revert dcode; decide

theorem widthOf_of_reserved {dcode : BitVec 3} (h : 5 < dcode.toNat) : widthOf dcode = none := by
  revert dcode; decide

theorem fitsWidth_eq_false_iff (d : Nat) (p : Poly) :
    fitsWidth d p = false ↔ ∃ i ∈ Finset.range 256, 2 ^ d ≤ (p.get i).val := by
  rw [← Bool.not_eq_true, fitsWidth_iff]
  simp [not_lt]

/-- ENC writes the packed string and reports success when nothing refuses it (R540). -/
theorem exec_enc_of_fits {addr : ByteAddr} {dcode : BitVec 3} {rs : Slot} {s : State} {d : Nat}
    (hd : widthOf dcode = some d) (hrange : addr.toNat + 32 * d ≤ 8192)
    (hfits : ∀ i, i < 256 → ((s.slot rs.toNat).get i).val < 2 ^ d) :
    exec (.enc addr 0 dcode rs) s =
      .next (succeeded (s.setBram (s.bram.writeBytes addr.toNat (byteEncode d (s.slot rs.toNat))))) := by
  have hr := (inByteRam_iff addr.toNat (32 * d)).2 hrange
  have hf := (fitsWidth_iff d (s.slot rs.toNat)).2 hfits
  simp [exec, execEnc, hd, hr, hf, complete_done_eq_succeeded]

/-- DEC writes the unpacked Poly and reports success when nothing refuses it (R541). -/
theorem exec_dec_of_range {addr : ByteAddr} {dcode : BitVec 3} {rd : Slot} {s : State} {d : Nat}
    (hd : widthOf dcode = some d) (hrange : addr.toNat + 32 * d ≤ 8192) :
    let B := s.bram.readBytes addr.toNat (32 * d)
    exec (.dec addr 0 dcode rd) s = .next (succeeded
      ((s.setSlot rd.toNat (decodePoly d B)).setStatus
        (s.status.flagNoncanon (decide (d = 12) && decodeNoncanon B)))) := by
  have hr := (inByteRam_iff addr.toNat (32 * d)).2 hrange
  simp [exec, execDec, hd, hr, complete_done_eq_succeeded]

/-- Settles O29. -/
theorem encPacksCoefficients : Obligations.EncPacksCoefficients := by
  intro addr zero dcode rs s hw
  refine ⟨_, rfl, ?_⟩
  dsimp only
  by_cases hcode : 5 < dcode.toNat
  · rw [widthOf_of_reserved hcode, if_pos (.inr hcode)]; rfl
  rw [widthOf_of_legal (Nat.le_of_not_lt hcode)]
  generalize [1, 4, 5, 10, 11, 12].getD dcode.toNat 0 = d
  dsimp only
  simp only [inByteRam_eq_false_iff, fitsWidth_eq_false_iff, hcode, or_false]
  by_cases hz : zero ≠ 0
  · rw [if_pos hz, if_pos hz]; rfl
  rw [if_neg hz, if_neg hz]
  by_cases hrange : 8192 < addr.toNat + 32 * d
  · rw [if_pos hrange, if_pos hrange]; rfl
  rw [if_neg hrange, if_neg hrange]
  by_cases hwide : d < 12 ∧ ∃ i ∈ Finset.range 256, 2 ^ d ≤ ((s.slot rs.toNat).get i).val
  · rw [if_pos hwide, if_pos hwide]; rfl
  rw [if_neg hwide, if_neg hwide]
  have hread := Memory.read_writeBytes hw (a := addr.toNat) (bs := byteEncode d (s.slot rs.toNat))
    (by rw [length_byteEncode]; omega)
  rw [length_byteEncode] at hread
  refine ⟨rfl, fun i k hi hk => ?_, fun a ha => (hread a).trans (if_neg ha)⟩
  have hbyte : (i * d + k) / 8 < 32 * d := by
    have : (i + 1) * d ≤ 256 * d := Nat.mul_le_mul_right d hi
    rw [Nat.succ_mul] at this
    omega
  have hbit := toNat_bitAt (byteEncode d (s.slot rs.toNat)) (i * d + k)
  rw [bitAt_byteEncode_coef _ hi hk, Nat.toNat_testBit, bit] at hbit
  rw [hbit, State.bram_complete_done, State.setBram_bram, hread, if_pos (by omega), Nat.add_sub_cancel_left]

/-- Settles O44. -/
theorem encDecRestores : Obligations.EncDecRestores := by
  intro addr dcode rs rd s d hw hcode hrange hfits
  have hd : widthOf dcode = some d := widthOf_of_legal hcode
  have hback : ((succeeded (s.setBram (s.bram.writeBytes addr.toNat (byteEncode d (s.slot rs.toNat))))).bram.readBytes
      addr.toNat (32 * d)) = byteEncode d (s.slot rs.toNat) := by
    have := readBytes_writeBytes hw (a := addr.toNat) (B := byteEncode d (s.slot rs.toNat))
      (by rw [length_byteEncode]; exact hrange)
    rwa [length_byteEncode] at this
  refine ⟨_, _, exec_enc_of_fits hd hrange hfits, exec_dec_of_range hd hrange, rfl, rfl, ?_, ?_⟩
  · rw [hback, decodePoly_byteEncode hfits, slot_succeeded, State.slot_setStatus, State.slot_setSlot _ rd.isLt, if_pos rfl]
  · have hcanon : (decide (d = 12) && decodeNoncanon (byteEncode d (s.slot rs.toNat))) = false := by
      by_cases h : d = 12
      · rw [h, decodeNoncanon_byteEncode, Bool.and_false]
      · rw [decide_eq_false h, Bool.false_and]
    rw [hback, hcanon, noncanon_succeeded, State.setStatus_status, Status.flagNoncanon_false]
    rfl

end Sys2Proof.Proofs
end

section
/-! PROOF. O43 (the integer forms of R18 are the rational ones) and O45 (the round trips of R544). Both rest on the remainders
of the two divisions: 2^d·Decompress_d(y) and 6658·Compress_d(x) are known up to a remainder below 2^d and 6658. -/

namespace Sys2Proof.Proofs

open Sys2Proof Sys2Proof.Machine Sys2Proof.Spec

/-! ## The rational forms -/

theorem two_pow_halves {d : Nat} (hd : 0 < d) : 2 ^ d = 2 * 2 ^ (d - 1) := by
  rw [← Nat.pow_succ', Nat.succ_eq_add_one, Nat.sub_add_cancel hd]

/-- The rounded quotient of R18 in ℚ is the integer one before its reduction mod 2^d. -/
theorem floor_compress (d x : Nat) :
    ⌊(2 ^ d / 3329 : ℚ) * x + 1 / 2⌋ = (((2 ^ (d + 1) * x + 3329) / (2 * 3329) : Nat) : Int) := by
  have h : (2 ^ d / 3329 : ℚ) * x + 1 / 2 = ((2 ^ (d + 1) * x + 3329 : Nat) : ℚ) / ((2 * 3329 : Nat) : ℚ) := by
    push_cast
    ring
  rw [h, Rat.floor_natCast_div_natCast, Int.natCast_div]

theorem floor_decompress {d : Nat} (hd : 0 < d) (y : Nat) :
    ⌊(3329 / 2 ^ d : ℚ) * y + 1 / 2⌋ = (decompress d y : Int) := by
  have h : (3329 / 2 ^ d : ℚ) * y + 1 / 2 = ((3329 * y + 2 ^ (d - 1) : Nat) : ℚ) / ((2 ^ d : Nat) : ℚ) := by
    have hhalf : (2 ^ d : ℚ) = 2 * 2 ^ (d - 1) := by exact_mod_cast two_pow_halves hd
    push_cast
    rw [hhalf]
    field_simp
  rw [h, Rat.floor_natCast_div_natCast, decompress, Int.natCast_div]

/-! ## The remainders -/

/-- 2^d·Decompress_d(y) is q·y + 2^(d−1) less a remainder below 2^d. -/
theorem decompress_remainder (d y : Nat) :
    ∃ r, r < 2 ^ d ∧ 2 ^ d * decompress d y + r = 3329 * y + 2 ^ (d - 1) :=
  ⟨_, Nat.mod_lt _ (Nat.two_pow_pos d), Nat.div_add_mod _ _⟩

/-- Compress_d(x) before its reduction mod 2^d is at most 2^d, and 2^(d+1)·x + q up to a remainder below 2q. -/
theorem compress_remainder (d x : Nat) :
    ∃ c r, compress d x = c % 2 ^ d ∧ r < 6658 ∧ 6658 * c + r = 2 ^ (d + 1) * x + 3329 :=
  ⟨_, _, rfl, Nat.mod_lt _ (by decide), Nat.div_add_mod _ _⟩

/-- Decompress_d never exceeds q − 1 (R18). -/
theorem decompress_le {d y : Nat} (hd : 0 < d) (hd' : 2 ^ d ≤ 4096) (hy : y < 2 ^ d) : decompress d y ≤ 3328 := by
  obtain ⟨r, hr, heq⟩ := decompress_remainder d y
  have hhalf := two_pow_halves hd
  have hlt : 2 ^ d * decompress d y < 2 ^ d * 3329 := by omega
  exact Nat.le_of_lt_succ (Nat.lt_of_mul_lt_mul_left hlt)

/-- Compress_d undoes Decompress_d on the values below 2^d: the two remainders together stay below q. -/
theorem compress_decompress {d y : Nat} (hd : 0 < d) (hd' : 2 ^ d ≤ 2048) (hy : y < 2 ^ d) :
    compress d (decompress d y) = y := by
  obtain ⟨r, hr, heq⟩ := decompress_remainder d y
  obtain ⟨c, r', hc, hr', heq'⟩ := compress_remainder d (decompress d y)
  have hhalf := two_pow_halves hd
  rw [Nat.pow_succ, Nat.mul_right_comm] at heq'
  have hcy : c = y := by omega
  rw [hc, hcy, Nat.mod_eq_of_lt hy]

/-- An integer that is near 0 up to a multiple of q has a residue near 0 or near q. -/
theorem emod_near {u v M B : Int} (huv : u % 3329 = v % 3329) (hlo : -3329 < v) (hhi : v < 3329) (hpos : v * M < B)
    (hneg : -v * M < B) : u % 3329 * M < B ∨ (3329 - u % 3329) * M < B := by
  rcases lt_or_ge v 0 with hv | hv
  · right
    rwa [huv, show 3329 - v % 3329 = -v by omega]
  · left
    rwa [huv, Int.emod_eq_of_lt hv hhi]

/-- Decompress_d(Compress_d(x)) is, mod q, within ⌈q/2^(d+1)⌉ of x (R544). -/
theorem decompress_compress_near {d x : Nat} (hd : 0 < d) (hd' : 2 ^ d ≤ 4096) (hx : x < 3329) :
    let e := ((decompress d (compress d x) : Int) - x) % 3329
    e * 2 ^ (d + 1) < 3329 + 2 ^ (d + 1) ∨ (3329 - e) * 2 ^ (d + 1) < 3329 + 2 ^ (d + 1) := by
  have hhalf := two_pow_halves hd
  have hpow := Nat.two_pow_pos d
  obtain ⟨c, r', hc, hr', heq'⟩ := compress_remainder d x
  obtain ⟨r, hr, heq⟩ := decompress_remainder d (compress d x)
  have hle := decompress_le hd hd' (y := compress d x) (hc ▸ Nat.mod_lt _ hpow)
  rw [Nat.pow_succ] at heq'
  rw [pow_succ]
  rcases Nat.lt_or_ge c (2 ^ d) with hlt | hge
  · -- below the wrap: the difference itself is near 0
    rw [Nat.mod_eq_of_lt hlt] at hc
    rw [hc] at heq hle ⊢
    zify at heq heq' hhalf hr hr' hpow
    exact emod_near rfl (by omega) (by omega) (by linarith) (by linarith)
  · -- at the wrap: Compress_d(x) = 0, and x is near q
    have hx2 : 2 ^ d * 2 * x ≤ 2 ^ d * 2 * 3328 := Nat.mul_le_mul_left _ (by omega)
    have hcd : c = 2 ^ d := by omega
    rw [hcd, Nat.mod_self] at hc
    rw [hc] at heq ⊢
    have hzero : decompress d 0 = 0 := Nat.div_eq_of_lt (by omega)
    have hpos : 0 < x := Nat.pos_of_ne_zero fun h => by rw [h] at heq'; omega
    rw [hzero]
    rw [hcd] at heq'
    zify at heq' hr' hpow
    exact emod_near (v := 3329 - x) (by omega) (by omega) (by omega) (by linarith) (by linarith)

/-! ## The obligations -/

/-- The widths of the compression commands. -/
theorem compressWidth_bounds {d : Nat} (hd : d ∈ [1, 4, 5, 10, 11]) : 0 < d ∧ 2 ^ d ≤ 2048 := by
  revert d; decide

theorem decompressWidth_bounds {d : Nat} (hd : d ∈ [1, 4, 5, 10, 11, 12]) : 0 < d ∧ 2 ^ d ≤ 4096 := by
  revert d; decide

/-- Settles O43. -/
theorem compressRounds : Obligations.CompressRounds := by
  refine ⟨fun d _ x _ => ?_, fun d hd y hy => ?_, fun x hx => ?_⟩
  · rw [floor_compress, compress, Int.natCast_mod]
    push_cast
    rfl
  · obtain ⟨hpos, hle⟩ := decompressWidth_bounds hd
    exact ⟨(floor_decompress hpos y).symm, decompress_le hpos hle hy⟩
  · simp only [compress]
    omega

theorem compressWidthOf_of_legal {fn : BitVec 3} (h : fn.toNat ≤ 4) :
    compressWidthOf fn = some ([1, 4, 5, 10, 11].getD fn.toNat 0) ∧
      [1, 4, 5, 10, 11].getD fn.toNat 0 ∈ [1, 4, 5, 10, 11] := by
  revert fn; decide

/-- DCMP with a legal width code succeeds on coefficients that fit (R543). -/
theorem exec_dcmp_of_fits {fn : BitVec 3} {rs1 rd : Slot} {s : State} {d : Nat} (hd : compressWidthOf fn = some d)
    (hfits : ∀ i, i < 256 → ((s.slot rs1.toNat).get i).val < 2 ^ d) :
    exec (.dcmp 0 fn 0 rs1 rd) s = .next (succeeded (s.setSlot rd.toNat (decompressPoly d (s.slot rs1.toNat)))) := by
  have hf := (fitsWidth_iff d (s.slot rs1.toNat)).2 hfits
  simp [exec, execDcmp, hd, hf, complete_done_eq_succeeded]

/-- CMPR with a legal width code succeeds (R542). -/
theorem exec_cmpr_of_legal {fn : BitVec 3} {rs1 rd : Slot} {s : State} {d : Nat} (hd : compressWidthOf fn = some d) :
    exec (.cmpr 0 fn 0 rs1 rd) s = .next (succeeded (s.setSlot rd.toNat (compressPoly d (s.slot rs1.toNat)))) := by
  simp [exec, execCmpr, hd, complete_done_eq_succeeded]

/-- Compressing the decompressed Poly gives it back when its coefficients fit in d bits. -/
theorem compressPoly_decompressPoly {d : Nat} (hd : 0 < d) (hd' : 2 ^ d ≤ 2048) {p : Poly}
    (hfits : ∀ i, i < 256 → (p.get i).val < 2 ^ d) : compressPoly d (decompressPoly d p) = p := by
  refine Poly.ext_get fun i hi => Fin.ext ?_
  have hle := decompress_le hd (by omega) (hfits i hi)
  rw [compressPoly, Poly.get_ofFn _ hi, decompressPoly, Poly.get_ofFn _ hi, narrow_natCast, narrow_natCast,
    Nat.mod_eq_of_lt (Nat.lt_succ_of_le hle), compress_decompress hd hd' (hfits i hi), Nat.mod_eq_of_lt (p.get i).isLt]

/-- Settles O45. -/
theorem compressionRoundTrips : Obligations.CompressionRoundTrips := by
  refine ⟨fun fn rs1 rd s hfn hfits => ?_, fun d hd x hx => ?_⟩
  · obtain ⟨hd, hmem⟩ := compressWidthOf_of_legal hfn
    obtain ⟨hpos, hle⟩ := compressWidth_bounds hmem
    refine ⟨_, _, exec_dcmp_of_fits hd hfits, exec_cmpr_of_legal hd, rfl, rfl, ?_⟩
    simp only [slot_succeeded, State.slot_setSlot _ rd.isLt, if_true]
    exact compressPoly_decompressPoly hpos hle hfits
  · obtain ⟨hpos, hle⟩ := compressWidth_bounds hd
    exact decompress_compress_near hpos (by omega) hx

end Sys2Proof.Proofs
end

section
/-! PROOF. O17 (NTT) and O18 (INTT): the machine computes a layer coefficient by coefficient, R15 and R16 by butterflies in
place. The butterflies of a layer touch disjoint pairs, so after the loops every coefficient holds its layer's value (log 6).
Both transforms are one argument: a butterfly is a pair of functions `u`, `v` of a twiddle and the two old values. -/

namespace Sys2Proof.Proofs

open Sys2Proof Sys2Proof.Machine Sys2Proof.Spec
open scoped Fin.CommRing

/-! ## Butterflies and layers of either transform -/

/-- One butterfly at j: `u` of the two old values at j, `v` of them at j+len. -/
def butterfly (u v : Coef → Coef → Coef) (len : Nat) (p : Nat → Coef) (j : Nat) : Nat → Coef :=
  fun n => if n = j then u (p j) (p (j + len)) else if n = j + len then v (p j) (p (j + len)) else p n

/-- One layer coefficient by coefficient, block b of 2·len coefficients with the twiddle `z b`. -/
def blockLayer (u v : Coef → Coef → Coef → Coef) (z : Nat → Coef) (len : Nat) (p : Nat → Coef) (i : Nat) : Coef :=
  if i % (2 * len) < len then u (z (i / (2 * len))) (p i) (p (i + len)) else v (z (i / (2 * len))) (p (i - len)) (p i)

/-- The upper and the lower output of a butterfly of R15 and of R16. -/
def nttUpper (z x y : Coef) : Coef := x + z * y
def nttLower (z x y : Coef) : Coef := x - z * y
def inttUpper (_ x y : Coef) : Coef := x + y
def inttLower (z x y : Coef) : Coef := z * (y - x)

theorem nttButterfly_eq (z : Coef) {len : Nat} (hlen : 0 < len) (p : Nat → Coef) (j : Nat) :
    nttButterfly z len p j = butterfly (nttUpper z) (nttLower z) len p j := by
  funext n
  have hne : j ≠ j + len := by omega
  simp only [nttButterfly, put, butterfly, nttUpper, nttLower, if_neg hne]

theorem inttButterfly_eq (z : Coef) {len : Nat} (hlen : 0 < len) (p : Nat → Coef) (j : Nat) :
    inttButterfly z len p j = butterfly (inttUpper z) (inttLower z) len p j := by
  funext n
  have hne : j + len ≠ j := by omega
  simp only [inttButterfly, put, butterfly, inttUpper, inttLower, if_neg hne]
  by_cases h : n = j
  · rw [if_pos h, if_pos h, if_neg (by omega)]
  · rw [if_neg h, if_neg h]

/-- The twiddle of block b in the layer of butterfly length `len` (R15, R16). -/
def nttTwiddle (len b : Nat) : Coef := zeta (128 / len + b)
def inttTwiddle (len b : Nat) : Coef := zeta (256 / len - 1 - b)

theorem nttLayer_eq (len : Nat) (p : Nat → Coef) : nttLayer len p = blockLayer nttUpper nttLower (nttTwiddle len) len p := by
  funext i
  simp only [nttLayer, blockLayer, modAdd_eq_add, modSub_eq_sub, modMul_eq_mul]
  rfl

theorem inttLayer_eq (len : Nat) (p : Nat → Coef) :
    inttLayer len p = blockLayer inttUpper inttLower (inttTwiddle len) len p := by
  funext i
  simp only [inttLayer, blockLayer, modAdd_eq_add, modSub_eq_sub, modMul_eq_mul]
  rfl

/-! ## The loops -/

/-- The j loop of one block: m butterflies at base, base+1, … -/
def blockLoop (u v : Coef → Coef → Coef) (len base m : Nat) (p : Nat → Coef) : Nat → Coef :=
  (List.range m).foldl (fun p j => butterfly u v len p (base + j)) p

/-- The start loop of one layer: m blocks, block b with the twiddle `z b`. -/
def layerLoop (u v : Coef → Coef → Coef → Coef) (z : Nat → Coef) (len m : Nat) (p : Nat → Coef) : Nat → Coef :=
  (List.range m).foldl (fun p b => blockLoop (u (z b)) (v (z b)) len (2 * len * b) len p) p

theorem blockLoop_succ (u v : Coef → Coef → Coef) (len base m : Nat) (p : Nat → Coef) :
    blockLoop u v len base (m + 1) p = butterfly u v len (blockLoop u v len base m p) (base + m) := by
  simp [blockLoop, List.range_succ]

theorem layerLoop_succ (u v : Coef → Coef → Coef → Coef) (z : Nat → Coef) (len m : Nat) (p : Nat → Coef) :
    layerLoop u v z len (m + 1) p = blockLoop (u (z m)) (v (z m)) len (2 * len * m) len (layerLoop u v z len m p) := by
  simp [layerLoop, List.range_succ]

/-- After m butterflies of a block the pairs (base+j, base+j+len) with j < m are done and nothing else has changed. -/
theorem blockLoop_apply (u v : Coef → Coef → Coef) (len base : Nat) (p : Nat → Coef) {m : Nat} (hm : m ≤ len) (n : Nat) :
    blockLoop u v len base m p n =
      if base ≤ n ∧ n < base + m then u (p n) (p (n + len))
      else if base + len ≤ n ∧ n < base + len + m then v (p (n - len)) (p n)
      else p n := by
  induction m generalizing n with
  | zero => rw [if_neg (by omega), if_neg (by omega)]; rfl
  | succ m ih =>
    have ih := ih (by omega)
    have hlow : blockLoop u v len base m p (base + m) = p (base + m) := by rw [ih, if_neg (by omega), if_neg (by omega)]
    have hhigh : blockLoop u v len base m p (base + m + len) = p (base + m + len) := by
      rw [ih, if_neg (by omega), if_neg (by omega)]
    rw [blockLoop_succ, butterfly, hlow, hhigh, ih]
    by_cases h1 : n = base + m
    · rw [if_pos h1, if_pos (by omega), h1]
    · rw [if_neg h1]
      by_cases h2 : n = base + m + len
      · rw [if_pos h2, if_neg (by omega), if_pos (by omega), h2, Nat.add_sub_cancel]
      · simp only [if_neg h2, show (base ≤ n ∧ n < base + (m + 1)) ↔ base ≤ n ∧ n < base + m by omega,
          show (base + len ≤ n ∧ n < base + len + (m + 1)) ↔ base + len ≤ n ∧ n < base + len + m by omega]

/-- After m blocks the coefficients below 2·len·m hold the layer's values and the others their old ones. -/
theorem layerLoop_apply (u v : Coef → Coef → Coef → Coef) (z : Nat → Coef) {len : Nat} (hlen : 0 < len) (p : Nat → Coef)
    (m n : Nat) : layerLoop u v z len m p n = if n < 2 * len * m then blockLayer u v z len p n else p n := by
  induction m generalizing n with
  | zero => rfl
  | succ m ih =>
    have hold : ∀ k, 2 * len * m ≤ k → layerLoop u v z len m p k = p k := fun k hk => by rw [ih, if_neg (by omega)]
    rw [layerLoop_succ, blockLoop_apply _ _ _ _ _ (Nat.le_refl len)]
    rcases Nat.lt_or_ge n (2 * len * m) with hlt | hge
    · rw [if_neg (by omega), if_neg (by omega), ih, if_pos hlt, if_pos (by rw [Nat.mul_succ]; omega)]
    rw [hold n hge]
    rcases Nat.lt_or_ge n (2 * len * (m + 1)) with hin | hout
    · have hdiv : n / (2 * len) = m := Nat.div_eq_of_lt_le (by rwa [Nat.mul_comm]) (by rwa [Nat.mul_comm])
      have hmod : n % (2 * len) = n - 2 * len * m := by rw [Nat.mod_eq_sub_mul_div, hdiv]
      rw [if_pos hin, blockLayer, hdiv, hmod]
      rw [Nat.mul_succ] at hin
      by_cases hup : n - 2 * len * m < len
      · rw [if_pos (by omega), if_pos hup, hold _ (by omega)]
      · rw [if_neg (by omega), if_pos (by omega), if_neg hup, hold _ (by omega)]
    · rw [Nat.mul_succ] at hout ⊢
      rw [if_neg (by omega), if_neg (by omega), if_neg (by omega)]

/-- A loop that carries a running index beside its value: the index of pass b is `k b`. -/
theorem foldl_runningIndex {α : Type} {next k : Nat → Nat} (hk : ∀ b, next (k b) = k (b + 1)) (F : Nat → α → Nat → α) (a : α)
    (m : Nat) :
    (List.range m).foldl (fun st b => (F st.2 st.1 b, next st.2)) (a, k 0) =
      ((List.range m).foldl (fun a b => F (k b) a b) a, k m) := by
  induction m with
  | zero => rfl
  | succ m ih => simp only [List.range_succ, List.foldl_append, List.foldl_cons, List.foldl_nil, ih, hk]

/-! ## One pass -/

/-- Two arrays hold the same 256 coefficients. -/
def agree (p q : Nat → Coef) : Prop := ∀ n, n < 256 → p n = q n

/-- The butterfly lengths of the seven layers (R15, R16). -/
def lengths : List Nat := [128, 64, 32, 16, 8, 4, 2]

theorem lengths_pos {len : Nat} (h : len ∈ lengths) : 0 < len := by
  revert len; decide

/-- The blocks of 2·len coefficients of a layer fill the 256. -/
theorem lengths_fill {len : Nat} (h : len ∈ lengths) : 2 * len * (128 / len) = 256 := by
  revert len; decide

/-- A layer reads no coefficient past the 256. -/
theorem blockLayer_congr (u v : Coef → Coef → Coef → Coef) (z : Nat → Coef) {len : Nat} (hlen : len ∈ lengths)
    {p q : Nat → Coef} (h : agree p q) : agree (blockLayer u v z len p) (blockLayer u v z len q) := by
  have hpos := lengths_pos hlen
  have htotal := lengths_fill hlen
  intro n hn
  have hblock : n / (2 * len) < 128 / len := Nat.div_lt_of_lt_mul (by omega)
  have hend : 2 * len * (n / (2 * len) + 1) ≤ 256 := htotal ▸ Nat.mul_le_mul_left _ hblock
  have hn' := Nat.div_add_mod n (2 * len)
  rw [Nat.mul_succ] at hend
  simp only [blockLayer]
  split
  · rw [h n hn, h (n + len) (by omega)]
  · rw [h n hn, h (n - len) (by omega)]

/-- One pass over the blocks with a running index that starts at `k 0`: it leaves the index at `k (128/len)` and the layer in
which block b takes the twiddle ZETA[k b]. -/
theorem pass_agree {len : Nat} (hlen : len ∈ lengths) {next k : Nat → Nat} (hk : ∀ b, next (k b) = k (b + 1))
    {bf : Coef → Nat → (Nat → Coef) → Nat → Nat → Coef} {u v : Coef → Coef → Coef → Coef}
    (hbf : ∀ z p j, bf z len p j = butterfly (u z) (v z) len p j) {q p : Nat → Coef} (h : agree q p) :
    let st := (List.range (128 / len)).foldl (fun st b =>
      ((List.range len).foldl (fun p j => bf (zetaPower st.2) len p (2 * len * b + j)) st.1, next st.2)) (q, k 0)
    st.2 = k (128 / len) ∧ agree st.1 (blockLayer u v (fun b => zeta (k b)) len p) := by
  intro st
  have hst : st = (layerLoop u v (fun b => zeta (k b)) len (128 / len) q, k (128 / len)) := by
    simp only [st, hbf, layerLoop, blockLoop, zeta_eq_zetaPower]
    exact foldl_runningIndex hk
      (fun k p b => blockLoop (u (zetaPower k)) (v (zetaPower k)) len (2 * len * b) len p) q (128 / len)
  rw [hst]
  exact ⟨rfl, fun n hn => (layerLoop_apply u v _ (lengths_pos hlen) q (128 / len) n).trans
    ((if_pos (by rw [lengths_fill hlen]; exact hn)).trans (blockLayer_congr u v _ hlen h n hn))⟩

/-- One pass of R15, entered with the running index at 128/len, is the machine's layer and leaves the index at 256/len. -/
theorem nttPass_agree {len : Nat} (hlen : len ∈ lengths) {st : (Nat → Coef) × Nat} {p : Nat → Coef}
    (h : st.2 = 128 / len ∧ agree st.1 p) :
    (nttPass st len).2 = 128 / len + 128 / len ∧ agree (nttPass st len).1 (nttLayer len p) := by
  obtain ⟨q, k⟩ := st
  obtain ⟨rfl, hagree⟩ := h
  rw [nttLayer_eq]
  exact pass_agree hlen (next := (· + 1)) (k := fun b => 128 / len + b) (fun _ => rfl)
    (fun z p j => nttButterfly_eq z (lengths_pos hlen) p j) hagree

/-- One pass of R16, entered with the running index at 256/len − 1, is the machine's layer and leaves it at 128/len − 1. -/
theorem inttPass_agree {len : Nat} (hlen : len ∈ lengths) {st : (Nat → Coef) × Nat} {p : Nat → Coef}
    (h : st.2 = 256 / len - 1 ∧ agree st.1 p) :
    (inttPass st len).2 = 256 / len - 1 - 128 / len ∧ agree (inttPass st len).1 (inttLayer len p) := by
  obtain ⟨q, k⟩ := st
  obtain ⟨rfl, hagree⟩ := h
  rw [inttLayer_eq]
  exact pass_agree hlen (next := (· - 1)) (k := fun b => 256 / len - 1 - b) (fun _ => rfl)
    (fun z p j => inttButterfly_eq z (lengths_pos hlen) p j) hagree

/-! ## The transforms -/

theorem ntt_eq_nttLoops (f : Poly) : ntt f = nttLoops f := by
  have h128 := nttPass_agree (len := 128) (by decide) (st := (f.get, 1)) ⟨rfl, fun _ _ => rfl⟩
  have h64 := nttPass_agree (len := 64) (by decide) h128
  have h32 := nttPass_agree (len := 32) (by decide) h64
  have h16 := nttPass_agree (len := 16) (by decide) h32
  have h8 := nttPass_agree (len := 8) (by decide) h16
  have h4 := nttPass_agree (len := 4) (by decide) h8
  have h2 := nttPass_agree (len := 2) (by decide) h4
  exact Poly.ofFn_congr fun i hi => (h2.2 i hi).symm

theorem intt_eq_inttLoops (f : Poly) : intt f = inttLoops f := by
  have h2 := inttPass_agree (len := 2) (by decide) (st := (f.get, 127)) ⟨rfl, fun _ _ => rfl⟩
  have h4 := inttPass_agree (len := 4) (by decide) h2
  have h8 := inttPass_agree (len := 8) (by decide) h4
  have h16 := inttPass_agree (len := 16) (by decide) h8
  have h32 := inttPass_agree (len := 32) (by decide) h16
  have h64 := inttPass_agree (len := 64) (by decide) h32
  have h128 := inttPass_agree (len := 128) (by decide) h64
  exact Poly.ofFn_congr fun i hi => by rw [modMul_eq_mul]; exact congrArg (· * 3303) (h128.2 i hi).symm

/-- The successful end of a command that replaces slot rd by a function of its old contents. -/
theorem slotsBecome_transform (s : State) (rd : Slot) (f : Poly → Poly) :
    slotsBecome s (fun n => if n = rd.toNat then f (s.slot n) else s.slot n)
      (s.complete (.done (s.setSlot rd.toNat (f (s.slot rd.toNat))))) := by
  have h : (fun n => if n = rd.toNat then f (s.slot n) else s.slot n) =
      fun n => if n = rd.toNat then f (s.slot rd.toNat) else s.slot n := by
    funext n
    split
    · rename_i hn; rw [hn]
    · rfl
  rw [h]
  exact slotsBecome_setSlot s rd _

/-- Settles O17. -/
theorem nttRunsTheLoops : Obligations.NttRunsTheLoops := by
  intro zero rd s
  refine ⟨_, rfl, ?_⟩
  by_cases hz : zero ≠ 0
  · rw [if_pos hz, if_pos hz]; rfl
  · rw [if_neg hz, if_neg hz, ntt_eq_nttLoops]
    exact slotsBecome_transform s rd nttLoops

/-- Settles O18. -/
theorem inttRunsTheLoops : Obligations.InttRunsTheLoops := by
  intro zero rd s
  refine ⟨_, rfl, ?_⟩
  by_cases hz : zero ≠ 0
  · rw [if_pos hz, if_pos hz]; rfl
  · rw [if_neg hz, if_neg hz, intt_eq_inttLoops]
    exact slotsBecome_transform s rd inttLoops

end Sys2Proof.Proofs
end

section
/-! PROOF. O41: a layer of INTT undoes the layer of NTT with the same butterfly length up to a factor 2, because the twiddles of
a block in the two are z and z' with z'·z = −1. Seven layers give the factor 128, and 128·3303 = 1 in ℤ_q. -/

namespace Sys2Proof.Proofs

open Sys2Proof Sys2Proof.Machine Sys2Proof.Spec
open scoped Fin.CommRing

/-! ## Twiddles as powers of 17 -/

theorem zeta_eq_pow (k : Nat) : zeta k = (17 : Coef) ^ bitrev7 k := by
  rw [zeta, Fin.ofNat_eq_cast, Nat.cast_pow]
  rfl

/-- 17 is a primitive 256th root of unity mod q (R13): its 128th power is −1. -/
theorem pow_128 : (17 : Coef) ^ 128 = -1 := by
  rw [show (17 : Coef) ^ 128 = ((17 ^ 128 : Nat) : Coef) from (Nat.cast_pow 17 128).symm]
  decide +kernel

/-- The exponents of a block's twiddles in the two transforms add up to 128. -/
theorem bitrev7_add_bitrev7 : ∀ len ∈ lengths, ∀ b < 128 / len,
    bitrev7 (256 / len - 1 - b) + bitrev7 (128 / len + b) = 128 := by
  decide +kernel

theorem inttTwiddle_mul_nttTwiddle {len b : Nat} (hlen : len ∈ lengths) (hb : b < 128 / len) :
    inttTwiddle len b * nttTwiddle len b = -1 := by
  rw [inttTwiddle, nttTwiddle, zeta_eq_pow, zeta_eq_pow, ← pow_add, bitrev7_add_bitrev7 len hlen b hb, pow_128]

/-! ## A layer at the two places of a butterfly -/

section Places

variable (u v : Coef → Coef → Coef → Coef) (z : Nat → Coef) (p : Nat → Coef) {len b r : Nat} (hr : r < len)
include hr

theorem blockLayer_upper :
    blockLayer u v z len p (2 * len * b + r) = u (z b) (p (2 * len * b + r)) (p (2 * len * b + r + len)) := by
  have hdiv : (2 * len * b + r) / (2 * len) = b := by
    rw [Nat.mul_add_div (by omega), Nat.div_eq_of_lt (by omega), Nat.add_zero]
  rw [blockLayer, hdiv, Nat.mul_add_mod, Nat.mod_eq_of_lt (by omega), if_pos hr]

theorem blockLayer_lower :
    blockLayer u v z len p (2 * len * b + r + len) = v (z b) (p (2 * len * b + r)) (p (2 * len * b + r + len)) := by
  have hdiv : (2 * len * b + (r + len)) / (2 * len) = b := by
    rw [Nat.mul_add_div (by omega), Nat.div_eq_of_lt (by omega), Nat.add_zero]
  rw [blockLayer, Nat.add_assoc, hdiv, Nat.mul_add_mod, Nat.mod_eq_of_lt (by omega), if_neg (by omega), ← Nat.add_assoc,
    Nat.add_sub_cancel]

end Places

/-- Every coefficient is the upper or the lower one of a butterfly, in one of the layer's blocks. -/
theorem exists_place {len n : Nat} (hlen : len ∈ lengths) (hn : n < 256) :
    ∃ b r, b < 128 / len ∧ r < len ∧ (n = 2 * len * b + r ∨ n = 2 * len * b + r + len) := by
  have hpos := lengths_pos hlen
  have hfill := lengths_fill hlen
  have hb : n / (2 * len) < 128 / len := Nat.div_lt_of_lt_mul (by omega)
  have hdiv := Nat.div_add_mod n (2 * len)
  have hmod := Nat.mod_lt n (show 0 < 2 * len by omega)
  by_cases h : n % (2 * len) < len
  · exact ⟨n / (2 * len), n % (2 * len), hb, h, .inl hdiv.symm⟩
  · exact ⟨n / (2 * len), n % (2 * len) - len, hb, by omega, .inr (by omega)⟩

/-! ## Undoing a layer -/

/-- A layer of INTT applied to c times a layer of NTT gives 2·c times what the layer of NTT was applied to. -/
theorem inttLayer_undoes {len : Nat} (hlen : len ∈ lengths) {c : Coef} {p q : Nat → Coef}
    (h : agree q fun n => c * nttLayer len p n) : agree (inttLayer len q) fun n => 2 * c * p n := by
  intro n hn
  rw [inttLayer_eq, blockLayer_congr _ _ _ hlen h n hn]
  simp only [nttLayer_eq]
  obtain ⟨b, r, hb, hr, rfl | rfl⟩ := exists_place hlen hn
  · rw [blockLayer_upper _ _ _ _ hr, blockLayer_upper _ _ _ _ hr, blockLayer_lower _ _ _ _ hr, inttUpper, nttUpper, nttLower]
    ring
  · rw [blockLayer_lower _ _ _ _ hr, blockLayer_upper _ _ _ _ hr, blockLayer_lower _ _ _ _ hr, inttLower, nttUpper, nttLower]
    linear_combination (-2 * c * p (2 * len * b + r + len)) * inttTwiddle_mul_nttTwiddle hlen hb

/-- Settles O41. -/
theorem inttInvertsNtt : Obligations.InttInvertsNtt := by
  intro f
  have h2 := inttLayer_undoes (len := 2) (by decide) (c := 1) (q := (ntt f).get) fun n hn =>
    (Poly.get_ofFn _ hn).trans (one_mul _).symm
  have h4 := inttLayer_undoes (len := 4) (by decide) h2
  have h8 := inttLayer_undoes (len := 8) (by decide) h4
  have h16 := inttLayer_undoes (len := 16) (by decide) h8
  have h32 := inttLayer_undoes (len := 32) (by decide) h16
  have h64 := inttLayer_undoes (len := 64) (by decide) h32
  have h128 := inttLayer_undoes (len := 128) (by decide) h64
  refine Poly.ext_get fun i hi => ?_
  rw [intt, Poly.get_ofFn _ hi, modMul_eq_mul, h128 i hi, mul_right_comm]
  rw [show (2 * (2 * (2 * (2 * (2 * (2 * (2 * 1)))))) * 3303 : Coef) = 1 by decide, one_mul]

end Sys2Proof.Proofs
end

section
/-! PROOF. O42: NTT is evaluation. Where x² = GAMMA[i], coefficients 2i and 2i+1 of NTT(f) are those of f(x) = c₀ + c₁·x, for each
layer replaces x^len by the twiddle of x's block. BASEMUL multiplies such values, the product in ℤ_q[X]/(X²⁵⁶ + 1) has the
product of the values because x²⁵⁶ = −1, and INTT goes back (O41). -/

namespace Sys2Proof.Proofs

open Sys2Proof Sys2Proof.Machine Sys2Proof.Spec
open scoped Fin.CommRing

section Evaluation

variable {S : Type} [CommRing S] [Algebra Coef S] (x : S)

/-- The value at x of the polynomial of block c: coefficients len·c, …, len·c + len − 1. -/
def blockValue (len : Nat) (p : Nat → Coef) (c : Nat) : S :=
  ∑ r ∈ Finset.range len, algebraMap Coef S (p (len * c + r)) * x ^ r

/-- f(x). -/
def polyValue (f : Poly) : S := blockValue x 256 f.get 0

theorem blockValue_congr {len c : Nat} (hc : len * (c + 1) ≤ 256) {p q : Nat → Coef} (h : agree p q) :
    blockValue x len p c = blockValue x len q c := by
  refine Finset.sum_congr rfl fun r hr => ?_
  have := Finset.mem_range.1 hr
  rw [Nat.mul_succ] at hc
  rw [h _ (by omega)]

/-- A block of 2·len coefficients at x, with its two halves joined. -/
theorem blockValue_halves (len : Nat) (p : Nat → Coef) (b : Nat) :
    blockValue x (2 * len) p b = ∑ r ∈ Finset.range len,
      (algebraMap Coef S (p (2 * len * b + r)) + x ^ len * algebraMap Coef S (p (2 * len * b + r + len))) * x ^ r := by
  rw [blockValue, show Finset.range (2 * len) = Finset.range (len + len) by rw [Nat.two_mul], Finset.sum_range_add,
    ← Finset.sum_add_distrib]
  refine Finset.sum_congr rfl fun r _ => ?_
  rw [show 2 * len * b + (len + r) = 2 * len * b + r + len by omega, pow_add]
  ring

/-- A layer keeps the value at x: block c of the new layer stands for block c/2 of the old one where x^len is the block's
twiddle, with the sign of the half that c is. -/
theorem blockValue_nttLayer {len : Nat} (c : Nat) (p : Nat → Coef)
    (hx : x ^ len = algebraMap Coef S ((-1) ^ c * nttTwiddle len (c / 2))) :
    blockValue x len (nttLayer len p) c = blockValue x (2 * len) p (c / 2) := by
  rw [blockValue_halves, blockValue, nttLayer_eq]
  refine Finset.sum_congr rfl fun r hr => congrArg (· * x ^ r) ?_
  have hr := Finset.mem_range.1 hr
  rw [hx, ← map_mul, ← map_add]
  rcases Nat.even_or_odd' c with ⟨b, rfl | rfl⟩
  · rw [show 2 * b / 2 = b by omega, show len * (2 * b) = 2 * len * b by ring, blockLayer_upper _ _ _ _ hr, nttUpper,
      (even_two_mul b).neg_one_pow, one_mul]
  · rw [show (2 * b + 1) / 2 = b by omega, show len * (2 * b + 1) + r = 2 * len * b + r + len by ring,
      blockLayer_lower _ _ _ _ hr, nttLower, (odd_two_mul_add_one b).neg_one_pow, neg_one_mul, neg_mul, ← sub_eq_add_neg]

end Evaluation

/-! ## The points x with x² = GAMMA[i] -/

theorem gamma_eq_pow (i : Nat) : gamma i = (17 : Coef) ^ (2 * bitrev7 i + 1) := by
  rw [gamma, Fin.ofNat_eq_cast, Nat.cast_pow]
  rfl

/-- GAMMA[i]^(len/2) is, in exponents of 17, the twiddle of the block that pair i lies in, up to the sign 17^128. -/
theorem bitrev7_gamma : ∀ len ∈ lengths, ∀ i < 128,
    (2 * bitrev7 i + 1) * (len / 2) % 256 = (128 * (2 * i / len) + bitrev7 (128 / len + 2 * i / len / 2)) % 256 := by
  decide +kernel

theorem lengths_even {len : Nat} (h : len ∈ lengths) : 2 * (len / 2) = len := by
  revert len; decide

theorem pow_256 : (17 : Coef) ^ 256 = 1 := by
  rw [show 256 = 128 * 2 from rfl, pow_mul, pow_128]
  ring

theorem gamma_pow {len i : Nat} (hlen : len ∈ lengths) (hi : i < 128) :
    gamma i ^ (len / 2) = (-1) ^ (2 * i / len) * nttTwiddle len (2 * i / len / 2) := by
  rw [gamma_eq_pow, ← pow_mul, pow_eq_pow_mod _ pow_256, bitrev7_gamma len hlen i hi, ← pow_eq_pow_mod _ pow_256, pow_add,
    pow_mul, pow_128, nttTwiddle, zeta_eq_pow]

section Evaluation

variable {S : Type} [CommRing S] [Algebra Coef S] {x : S} {i : Nat} (hi : i < 128) (hx : x ^ 2 = algebraMap Coef S (gamma i))
include hi hx

theorem blockValue_nttLayer_pair {len : Nat} (hlen : len ∈ lengths) (p : Nat → Coef) :
    blockValue x len (nttLayer len p) (2 * i / len) = blockValue x (2 * len) p (2 * i / (2 * len)) := by
  rw [blockValue_nttLayer x, Nat.div_div_eq_div_mul, Nat.mul_comm len 2]
  rw [← gamma_pow hlen hi, map_pow, ← hx, ← pow_mul, lengths_even hlen]

/-- Pair i of NTT(f) is f(x) (R15, R17). -/
theorem pair_ntt (f : Poly) :
    algebraMap Coef S ((ntt f).get (2 * i)) + algebraMap Coef S ((ntt f).get (2 * i + 1)) * x = polyValue x f := by
  have hpair : blockValue x 2 (ntt f).get i =
      algebraMap Coef S ((ntt f).get (2 * i)) + algebraMap Coef S ((ntt f).get (2 * i + 1)) * x := by
    simp [blockValue, Finset.sum_range_succ]
  have hout : agree (ntt f).get (nttLayer 2 (nttLayer 4 (nttLayer 8 (nttLayer 16 (nttLayer 32 (nttLayer 64
      (nttLayer 128 f.get))))))) := fun n hn => Poly.get_ofFn _ hn
  have layer := fun len hlen p => blockValue_nttLayer_pair hi hx (len := len) hlen p
  rw [← hpair, blockValue_congr x (by omega) hout, ← Nat.mul_div_cancel_left i (show 0 < 2 by decide)]
  calc _ = blockValue x 4 _ (2 * i / 4) := layer 2 (by decide) _
    _ = blockValue x 8 _ (2 * i / 8) := layer 4 (by decide) _
    _ = blockValue x 16 _ (2 * i / 16) := layer 8 (by decide) _
    _ = blockValue x 32 _ (2 * i / 32) := layer 16 (by decide) _
    _ = blockValue x 64 _ (2 * i / 64) := layer 32 (by decide) _
    _ = blockValue x 128 _ (2 * i / 128) := layer 64 (by decide) _
    _ = blockValue x 256 _ (2 * i / 256) := layer 128 (by decide) _
    _ = polyValue x f := by rw [Nat.div_eq_of_lt (by omega)]; rfl

omit hi in
theorem pow_256_of_sq_eq_gamma : x ^ 256 = -1 := by
  rw [show 256 = 2 * 128 from rfl, pow_mul, hx, ← map_pow, gamma_eq_pow, ← pow_mul, Nat.mul_comm, pow_mul, pow_128,
    (Odd.neg_one_pow ⟨_, rfl⟩), map_neg, map_one]

end Evaluation

/-! ## The product in ℤ_q[X]/(X²⁵⁶ + 1) -/

section Product

variable {S : Type} [CommRing S] {x : S}

/-- Multiplying by x^i turns the coefficients round by i places, and those that pass x^N = −1 change their sign. -/
theorem sum_rotate {N i : Nat} (hx : x ^ N = -1) (hi : i ≤ N) (g : Nat → S) :
    ∑ n ∈ Finset.range N, (if i ≤ n then g (n - i) else -g (N + n - i)) * x ^ n =
      x ^ i * ∑ j ∈ Finset.range N, g j * x ^ j := by
  obtain ⟨m, rfl⟩ := Nat.exists_eq_add_of_le hi
  have hwrap : ∀ n ∈ Finset.range i, (if i ≤ n then g (n - i) else -g (i + m + n - i)) * x ^ n =
      x ^ i * (g (m + n) * x ^ (m + n)) := fun n hn => by
    rw [if_neg (Nat.not_le.2 (Finset.mem_range.1 hn)), show i + m + n - i = m + n by omega]
    linear_combination (-g (m + n) * x ^ n) * hx
  have hshift : ∀ n, (if i ≤ i + n then g (i + n - i) else -g (i + m + (i + n) - i)) * x ^ (i + n) = x ^ i * (g n * x ^ n) :=
    fun n => by
      rw [if_pos (Nat.le_add_right i n), Nat.add_sub_cancel_left]
      ring
  rw [Finset.sum_range_add, Finset.sum_congr rfl hwrap, Finset.sum_congr rfl fun n _ => hshift n, Nat.add_comm i m,
    Finset.sum_range_add, mul_add, Finset.mul_sum, Finset.mul_sum, add_comm]

/-- The value at x of the product is the product of the values where x²⁵⁶ = −1. -/
theorem polyValue_ringProduct [Algebra Coef S] (hx : x ^ 256 = -1) (a b : Poly) :
    polyValue x (Poly.ofFn (ringProduct a b)) = polyValue x a * polyValue x b := by
  have hcoef : ∀ n ∈ Finset.range 256, algebraMap Coef S ((Poly.ofFn (ringProduct a b)).get n) * x ^ n =
      ∑ i ∈ Finset.range 256, algebraMap Coef S (a.get i) *
        ((if i ≤ n then algebraMap Coef S (b.get (n - i)) else -algebraMap Coef S (b.get (256 + n - i))) * x ^ n) := by
    intro n hn
    rw [Poly.get_ofFn _ (Finset.mem_range.1 hn), ringProduct, map_sum, Finset.sum_mul]
    refine Finset.sum_congr rfl fun i _ => ?_
    split <;> simp [mul_assoc]
  simp only [polyValue, blockValue, Nat.mul_zero, Nat.zero_add]
  rw [Finset.sum_congr rfl hcoef, Finset.sum_comm, Finset.sum_mul]
  refine Finset.sum_congr rfl fun i hi => ?_
  rw [← Finset.mul_sum, sum_rotate hx (Nat.le_of_lt (Finset.mem_range.1 hi)) fun j => algebraMap Coef S (b.get j), mul_assoc]

end Product

/-! ## BASEMUL -/

/-- Pair i of BaseMul is the product of the pairs mod X² − GAMMA[i] (R17). -/
theorem pair_baseMul (a b : Poly) {i : Nat} (hi : i < 128) :
    (⟨(baseMul a b).get (2 * i), (baseMul a b).get (2 * i + 1)⟩ : QuadraticAlgebra Coef (gamma i) 0) =
      ⟨a.get (2 * i), a.get (2 * i + 1)⟩ * ⟨b.get (2 * i), b.get (2 * i + 1)⟩ := by
  rw [baseMul, Poly.get_ofFn _ (by omega), Poly.get_ofFn _ (by omega)]
  simp only [modAdd_eq_add, modMul_eq_mul, Nat.mul_mod_right, Nat.mul_div_cancel_left i (show 0 < 2 by decide),
    show (2 * i + 1) % 2 ≠ 0 by omega, show (2 * i + 1) / 2 = i by omega, if_true, if_false]
  ext
  · simp [mul_assoc]
  · simp

/-- A pair as an element of ℤ_q[x] with x² = GAMMA[i]. -/
theorem mk_eq_algebraMap_add {g : Coef} (c0 c1 : Coef) :
    (⟨c0, c1⟩ : QuadraticAlgebra Coef g 0) =
      algebraMap Coef _ c0 + algebraMap Coef _ c1 * QuadraticAlgebra.omega := by
  ext <;> simp

/-- NTT turns the product in ℤ_q[X]/(X²⁵⁶ + 1) into BASEMUL (R424). -/
theorem ntt_ringProduct (a b : Poly) : ntt (Poly.ofFn (ringProduct a b)) = baseMul (ntt a) (ntt b) := by
  have hpair : ∀ i, i < 128 →
      (⟨(ntt (Poly.ofFn (ringProduct a b))).get (2 * i), (ntt (Poly.ofFn (ringProduct a b))).get (2 * i + 1)⟩ :
        QuadraticAlgebra Coef (gamma i) 0) =
      ⟨(baseMul (ntt a) (ntt b)).get (2 * i), (baseMul (ntt a) (ntt b)).get (2 * i + 1)⟩ := fun i hi => by
    have hsq : (QuadraticAlgebra.omega : QuadraticAlgebra Coef (gamma i) 0) ^ 2 = algebraMap Coef _ (gamma i) := by
      rw [sq, QuadraticAlgebra.omega_mul_omega_eq_algebraMap, map_zero, zero_mul, add_zero]
    rw [pair_baseMul _ _ hi]
    simp only [mk_eq_algebraMap_add, pair_ntt hi hsq]
    exact polyValue_ringProduct (pow_256_of_sq_eq_gamma hsq) a b
  refine Poly.ext_get fun n hn => ?_
  have h := hpair (n / 2) (by omega)
  rcases Nat.even_or_odd' n with ⟨i, rfl | rfl⟩
  · rw [show 2 * i / 2 = i by omega] at h
    exact congrArg QuadraticAlgebra.re h
  · rw [show (2 * i + 1) / 2 = i by omega] at h
    exact congrArg QuadraticAlgebra.im h

/-- Settles O42. -/
theorem nttMultipliesPolynomials : Obligations.NttMultipliesPolynomials := by
  intro a b n hn
  rw [← ntt_ringProduct, inttInvertsNtt, Poly.get_ofFn _ hn]

end Sys2Proof.Proofs
end

section
/-! PROOF. The host side, said once: the address of every register (R102), what an aligned access of one does, and everything a
host operation can do to the state (R200-R214, R800). -/

namespace Sys2Proof.Proofs

open Sys2Proof Sys2Proof.Machine Sys2Proof.Spec

/-! ## Registers by address -/

/-- The host address of a register (R102). -/
def regAddress : Reg → HostAddr
  | .id => 0x000
  | .ctrl => 0x004
  | .status => 0x008
  | .cmd => 0x00C
  | .opa => 0x010
  | .opb => 0x014
  | .opx => 0x018
  | .res => 0x01C
  | .nonce => 0x020
  | .consumed => 0x024
  | .hsrc => 0x028
  | .hlen => 0x02C
  | .hdst => 0x030
  | .holen => 0x034

theorem isAligned_regAddress (r : Reg) : isAligned (regAddress r) = true := by cases r <;> rfl

theorem regionOf_regAddress (r : Reg) : regionOf (regAddress r) = .reg r := by cases r <;> rfl

theorem regAt_eq_some {off : Nat} {r : Reg} (h : regAt off = some r) : off = (regAddress r).toNat := by
  unfold regAt at h
  split at h
  · have hlt : off / 4 < 14 := (List.getElem?_eq_some_iff.1 h).1
    obtain ⟨k, rfl⟩ : ∃ k, off = 4 * k := ⟨off / 4, by omega⟩
    rw [Nat.mul_div_cancel_left k (by decide)] at h hlt
    interval_cases k <;> cases h <;> rfl
  · cases h

/-- An address in a register's region is the register's address. -/
theorem eq_regAddress {addr : HostAddr} {r : Reg} (h : regionOf addr = .reg r) : addr = regAddress r := by
  simp only [regionOf] at h
  split at h
  · split at h
    next r' hr => cases h; exact BitVec.eq_of_toNat_eq (regAt_eq_some hr)
    next => cases h
  · split at h
    · cases h
    · split at h
      · cases h
      · split at h <;> cases h

theorem regAt_eq_none {off : Nat} (h : 0x38 ≤ off) : regAt off = none := by
  unfold regAt
  split
  · exact List.getElem?_eq_none_iff.2 (show 14 ≤ off / 4 by omega)
  · rfl

/-- The reserved register space and the unmapped addresses (R126, R202). -/
theorem regionOf_empty {addr : HostAddr}
    (h : (0x00038 ≤ addr.toNat ∧ addr.toNat < 0x10000) ∨ (0x22000 ≤ addr.toNat ∧ addr.toNat < 0x30000) ∨
      0x30600 ≤ addr.toNat) : regionOf addr = .reserved ∨ regionOf addr = .unmapped := by
  simp only [regionOf]
  by_cases hreg : addr.toNat < 0x10000
  · rw [if_pos hreg, regAt_eq_none (by omega)]
    exact .inl rfl
  · rw [if_neg hreg, if_neg (by omega), if_neg (by omega), if_neg (by omega)]
    exact .inr rfl

/-! ## Aligned accesses -/

theorem isAligned_iff (addr : HostAddr) : isAligned addr = true ↔ addr.toNat % 4 = 0 := by simp [isAligned]

theorem hostRead_register (r : Reg) (s : State) : hostRead (regAddress r) s = (readReg r s, s) := by
  simp [hostRead, isAligned_regAddress, regionOf_regAddress]

theorem hostWrite_register (r : Reg) (data : Word) (s : State) :
    hostWrite (regAddress r) data 0xF s = writeReg r data s := by
  simp [hostWrite, isAligned_regAddress, regionOf_regAddress]

theorem hostWrite_register_partial (r : Reg) (data : Word) {wstrb : BitVec 4} (h0 : wstrb ≠ 0) (hF : wstrb ≠ 0xF)
    (s : State) : hostWrite (regAddress r) data wstrb s = partialRegWrite r s := by
  simp only [hostWrite, isAligned_regAddress, regionOf_regAddress, h0, hF, if_false, Bool.true_eq_false]

theorem hostRead_empty {addr : HostAddr} (ha : addr.toNat % 4 = 0)
    (h : regionOf addr = .reserved ∨ regionOf addr = .unmapped) (s : State) : hostRead addr s = (0, s) := by
  rcases h with h | h <;> simp [hostRead, (isAligned_iff addr).2 ha, h]

theorem hostWrite_empty {addr : HostAddr} (ha : addr.toNat % 4 = 0)
    (h : regionOf addr = .reserved ∨ regionOf addr = .unmapped) (data : Word) (wstrb : BitVec 4) (s : State) :
    hostWrite addr data wstrb s = s := by
  rcases h with h | h <;> simp [hostWrite, (isAligned_iff addr).2 ha, h]

theorem hostWrite_no_lane {addr : HostAddr} (ha : addr.toNat % 4 = 0) (data : Word) (s : State) :
    hostWrite addr data 0 s = s := by
  simp [hostWrite, (isAligned_iff addr).2 ha]

/-- A byte-RAM word lies inside the byte RAM, unless the access is misaligned and refused. -/
theorem bram_word_in_range {addr : HostAddr} {k : Nat} (ha : isAligned addr = true) (h : regionOf addr = .bram k) :
    k + 3 < 8192 := by
  have ha := (isAligned_iff addr).1 ha
  simp only [regionOf] at h
  split at h
  · split at h <;> cases h
  · split at h
    · cases h
    · split at h
      · have := Region.bram.inj h; omega
      · split at h <;> cases h

/-! ## Everything a host operation can do -/

/-- The states a host operation may leave. -/
inductive HostEffect (op : HostOp) (s : State) : State → Prop where
  /-- CTRL.IE, the sticky flags ACCERR and OVERRUN and the last read data -/
  | sticky (ie accerr overrun : Bool) (rdata : Word) :
      HostEffect op s { s with ie, rdata, status := { s.status with accerr, overrun } }
  /-- a reset (R800, R802) -/
  | reset (h : ¬quiet op) : HostEffect op s (resetCore s)
  /-- a STATUS write (R112) -/
  | clear (data : Word) (h : op = .write 0x008 data 0xF) : HostEffect op s (s.setStatus (s.status.writeOneToClear data))
  /-- an accepted command (R121) -/
  | accept (w : Word) (h : op = .write 0x00C w 0xF) (idle : s.status.busy = false) : HostEffect op s (acceptCommand w s)
  /-- an operand register or a RAM cell, while idle (R207, R214) -/
  | store (t : State) (idle : s.status.busy = false)
      (frame : t = { s with opa := t.opa, opb := t.opb, opx := t.opx, nonce := t.nonce, hsrc := t.hsrc, hlen := t.hlen,
                            hdst := t.hdst, holen := t.holen, slots := t.slots, bram := t.bram })
      (canonical : s.bram.wf = true → t.bram.wf = true) : HostEffect op s t

theorem HostEffect.unchanged {op : HostOp} {s : State} : HostEffect op s s :=
  .sticky s.ie s.status.accerr s.status.overrun s.rdata

theorem HostEffect.refuse {op : HostOp} {s : State} : HostEffect op s s.refuse :=
  .sticky s.ie true s.status.overrun s.rdata

theorem writeOperand_effect {op : HostOp} {s t : State}
    (frame : t = { s with opa := t.opa, opb := t.opb, opx := t.opx, nonce := t.nonce, hsrc := t.hsrc, hlen := t.hlen,
                          hdst := t.hdst, holen := t.holen }) : HostEffect op s (writeOperand s t) := by
  unfold writeOperand
  split
  · exact .refuse
  next idle => exact .store t (by simpa using idle) (by rw [frame]) (by rw [frame]; exact id)

/-- A full-word register write (R102). -/
theorem writeReg_effect (r : Reg) (data : Word) (s : State) :
    HostEffect (.write (regAddress r) data 0xF) s (writeReg r data s) := by
  cases r with
  | id | res | consumed => exact .unchanged
  | ctrl =>
    simp only [writeReg]
    split
    next hrst => exact .reset fun h => h ⟨rfl, rfl, hrst⟩
    next => exact .sticky (data.getLsbD 0) s.status.accerr s.status.overrun s.rdata
  | status => exact .clear data rfl
  | cmd =>
    simp only [writeReg]
    split
    next => exact .sticky s.ie s.status.accerr true s.rdata
    next idle => exact .accept data rfl (by simpa using idle)
  | opa | opb | opx | nonce | hsrc | hlen | hdst | holen => exact writeOperand_effect rfl

theorem hostWrite_effect (addr : HostAddr) (data : Word) (wstrb : BitVec 4) (s : State) :
    HostEffect (.write addr data wstrb) s (hostWrite addr data wstrb s) := by
  by_cases ha : isAligned addr = true
  · obtain h | h | ⟨-, -, h⟩ | ⟨r, hr, rfl, h⟩ | ⟨k, i, -, idle, -, -, h⟩ | ⟨k, hk, idle, h⟩ :=
      hostWrite_cases addr data wstrb s <;> rw [h]
    · exact .unchanged
    · exact .refuse
    · exact .sticky s.ie true true s.rdata
    · rw [eq_regAddress hr]
      exact writeReg_effect r data s
    · exact .store _ idle rfl id
    · exact .store _ idle rfl fun hw => writeLanes_wf hw (bram_word_in_range ha hk) data wstrb
  · rw [hostWrite, if_pos (by simpa using ha)]
    exact .refuse

/-- Everything one host operation can do (R200, R800). -/
theorem applyHostOp_effect (op : HostOp) (s : State) : HostEffect op s (applyHostOp op s) := by
  cases op with
  | read addr =>
    simp only [applyHostOp]
    rcases hostRead_cases addr s with h | h
    · rw [h]
      exact .sticky s.ie s.status.accerr s.status.overrun _
    · rw [h]
      exact .sticky s.ie true s.status.overrun _
  | write addr data wstrb => exact hostWrite_effect addr data wstrb s
  | reset => exact .reset id

/-- One step of the host: nothing is pending, or the oldest pending operation is applied (R860). -/
theorem hostStep_cases (s : State) :
    (s.inputs = [] ∧ hostStep s = { s with busyLeft := s.busyLeft - 1 }) ∨
      ∃ op rest, s.inputs = op :: rest ∧
        hostStep s = applyHostOp op { s with inputs := rest, busyLeft := s.busyLeft - 1 } := by
  unfold hostStep
  cases h : s.inputs with
  | nil => exact .inl ⟨rfl, by simp⟩
  | cons op rest => exact .inr ⟨op, rest, rfl, by simp⟩

end Sys2Proof.Proofs
end

section
/-! PROOF. O7 (the step), O8 (the invariant), O46 (what a completion can do), O48 (DONE) and O49 (a running command is
undisturbed): each is read off the list of what a host operation can do (HostEffect) and of what a command can do
(AllowedEffect). -/

namespace Sys2Proof.Proofs

open Sys2Proof Sys2Proof.Machine Sys2Proof.Spec

/-! ## The step -/

/-- A step is the core's or the host's (R860). -/
theorem step_cases {s t : State} (h : step s = .next t) :
    (s.status.busy = true ∧ s.busyLeft = 0 ∧ runCommand s = .next t) ∨
      ((s.status.busy = false ∨ 0 < s.busyLeft) ∧ t = hostStep s) := by
  by_cases hc : s.status.busy = true ∧ s.busyLeft = 0
  · exact .inl ⟨hc.1, hc.2, step_core hc.1 hc.2 ▸ h⟩
  · have hhost : s.status.busy = false ∨ 0 < s.busyLeft := by
      cases hb : s.status.busy
      · exact .inl rfl
      · exact .inr (Nat.pos_of_ne_zero fun h0 => hc ⟨hb, h0⟩)
    rw [step_host hhost] at h
    exact .inr ⟨hhost, by cases h; rfl⟩

/-- Settles O7. -/
theorem stepRunsLatchedCommand : Obligations.StepRunsLatchedCommand := by
  refine ⟨fun s i hb h0 hi => ?_, fun s hhost => ?_, fun _ _ => rfl, fun _ _ _ _ => rfl⟩
  · rw [step_core hb h0, runCommand, hi]
  · rw [step_host hhost]
    rcases hostStep_cases s with ⟨hin, h⟩ | ⟨op, rest, hin, h⟩ <;> simp only [h, hin]

/-! ## The invariant -/

theorem code_bounds (e : CmdError) : 1 ≤ e.code.toNat ∧ e.code.toNat ≤ 7 := by cases e <;> decide

theorem code_ne_zero (e : CmdError) : e.code ≠ 0 := by cases e <;> decide

/-- SNTTB is opcode 0x33 (R310). -/
theorem decode_snttb {w : Word} {addr : ByteAddr} {zero : BitVec 5} {rd : Slot} (h : decode w = .ok (.snttb addr zero rd)) :
    w.extractLsb' 0 8 = 0x33 := by
  unfold decode at h
  split at h <;> cases h
  assumption

theorem noError_below8 : (0#4).toNat < 8 := by decide

/-- A reset meets the invariant, whatever the host keeps across it. -/
theorem inv_resetCore (s : State) : (resetCore s).Inv where
  ramCanonical := Memory.wf_nil
  resIsCoef := show (0#16).toNat < 3329 by decide
  consumedIsChunks := show (0#32).toNat % 3 = 0 by decide
  errCodeBelow8 := noError_below8
  busyIsFresh h := Bool.noConfusion h
  errHasCode h := Bool.noConfusion h

/-- Whatever the host does keeps the invariant. -/
theorem inv_hostEffect {op : HostOp} {s t : State} (hs : s.Inv) (h : HostEffect op s t) : t.Inv := by
  obtain ⟨hram, hres, hcons, hcode, hfresh, herr⟩ := hs
  cases h with
  | sticky ie accerr overrun rdata => exact ⟨hram, hres, hcons, hcode, hfresh, herr⟩
  | reset h => exact inv_resetCore s
  | clear data h =>
    refine ⟨hram, hres, hcons, hcode, fun hb => ?_, fun he => herr (Bool.and_elim_left he)⟩
    obtain ⟨hd, he, hc⟩ := hfresh hb
    simp [Status.writeOneToClear, hd, he, hc]
  | accept w h idle => exact ⟨hram, hres, hcons, noError_below8, fun _ => ⟨rfl, rfl, rfl⟩, fun he => Bool.noConfusion he⟩
  | store t idle frame canonical =>
    rw [frame]
    exact ⟨canonical hram, hres, hcons, hcode, hfresh, herr⟩

/-- A completion with a CmdError that wrote nothing else (R700). -/
theorem inv_error {s : State} (hs : s.Inv) (e : CmdError) : (s.complete (.error e s)).Inv :=
  ⟨hs.ramCanonical, hs.resIsCoef, hs.consumedIsChunks, Nat.lt_succ_of_le (code_bounds e).2, fun h => Bool.noConfusion h,
    fun _ => code_ne_zero e⟩

/-- However a command ends, it keeps the invariant. -/
theorem inv_allowedEffect {i : Instr} {s : State} {r : Effect} (hs : s.Inv) (h : AllowedEffect i s r) :
    (s.complete r).Inv := by
  have ⟨hram, hres, hcons, hcode, hfresh, herr⟩ := hs
  cases h with
  | pending => exact ⟨hram, hres, hcons, hcode, hfresh, herr⟩
  | error e => exact inv_error hs e
  | stream addr zero rd n hi h3 hn =>
    have hchunks : (BitVec.ofNat 32 n).toNat % 3 = 0 := by rw [BitVec.toNat_ofNat, Nat.mod_eq_of_lt hn, h3]
    exact inv_error (s := s.setConsumed n) ⟨hram, hres, hchunks, hcode, hfresh, herr⟩ .stream
  | done t nc frame res consumed canonical =>
    refine ⟨canonical hram, ?_, ?_, noError_below8, fun h => Bool.noConfusion h, fun h => Bool.noConfusion h⟩
    · rcases res with h | h
      · exact (congrArg BitVec.toNat h).trans_lt hres
      · exact h
    · rcases consumed with h | h
      · exact (congrArg (·.toNat % 3) h).trans hcons
      · exact h

theorem inv_hostStep {s : State} (hs : s.Inv) : (hostStep s).Inv := by
  obtain ⟨hram, hres, hcons, hcode, hfresh, herr⟩ := hs
  rcases hostStep_cases s with ⟨-, h⟩ | ⟨op, rest, -, h⟩ <;> rw [h]
  · exact ⟨hram, hres, hcons, hcode, hfresh, herr⟩
  · exact inv_hostEffect (s := { s with inputs := rest, busyLeft := s.busyLeft - 1 })
      ⟨hram, hres, hcons, hcode, hfresh, herr⟩ (applyHostOp_effect op _)

/-- Settles O8: every host operation and every command's effect keeps the invariant. -/
theorem stepKeepsInvariant : Obligations.StepKeepsInvariant := by
  intro s t hs hstep
  rcases step_cases hstep with ⟨-, -, hrun⟩ | ⟨-, rfl⟩
  · rcases runCommand_effect s with ⟨i, r, -, h, hr⟩ | ⟨-, h⟩ <;> rw [h] at hrun <;> cases hrun
    · exact inv_allowedEffect hs hr
    · exact inv_error hs .illegal
  · exact inv_hostStep hs

/-! ## Completion -/

/-- Settles O46. -/
theorem completionOutcomes : Obligations.CompletionOutcomes := by
  intro s hb h0
  have failure (e : CmdError) : ∃ c : BitVec 4, 1 ≤ c.toNat ∧ c.toNat ≤ 7 ∧ s.complete (.error e s) = failed c s :=
    ⟨e.code, (code_bounds e).1, (code_bounds e).2, complete_error_eq_failed s e s⟩
  rw [step_core hb h0]
  rcases runCommand_effect s with ⟨i, r, hi, h, hr⟩ | ⟨-, h⟩ <;> refine ⟨_, h, ?_⟩
  · cases hr with
    | pending => exact .inl rfl
    | error e => exact .inr (.inl (failure e))
    | stream addr zero rd n hsnttb h3 hn => exact .inr (.inr (.inl ⟨BitVec.ofNat 32 n, decode_snttb (hsnttb ▸ hi), rfl⟩))
    | done t nc frame res consumed canonical =>
      refine .inr (.inr (.inr ⟨rfl, ?_⟩))
      rw [frame]
      exact ⟨rfl, rfl, rfl, rfl, rfl, rfl, rfl, rfl, rfl, rfl, rfl, rfl, rfl, rfl, rfl, rfl⟩
  · exact .inr (.inl (failure .illegal))

/-- The core's step keeps every flag, or clears BUSY and sets DONE (R121, R505). -/
theorem runCommand_busy_done {s t : State} (h : runCommand s = .next t) :
    t.status = s.status ∨ (t.status.busy = false ∧ t.status.done = true) := by
  rcases runCommand_effect s with ⟨i, r, -, hrun, hr⟩ | ⟨-, hrun⟩ <;> rw [hrun] at h <;> cases h
  · cases hr with
    | pending => exact .inl rfl
    | error e => exact .inr ⟨rfl, rfl⟩
    | stream addr zero rd n hsnttb h3 hn => exact .inr ⟨rfl, rfl⟩
    | done t nc frame res consumed canonical => exact .inr ⟨rfl, rfl⟩
  · exact .inr ⟨rfl, rfl⟩

/-! ## DONE -/

/-- The host operations that clear DONE (R112, R121, R800, R802). -/
def clearsDone (s : State) (op : HostOp) : Prop :=
  ¬quiet op ∨ (∃ data : Word, op = .write 0x008 data 0xF ∧ data.getLsbD 1 = true) ∨
    (s.status.busy = false ∧ ∃ data : Word, op = .write 0x00C data 0xF)

/-- No host operation sets DONE. -/
theorem done_hostEffect {op : HostOp} {s t : State} (h : HostEffect op s t) :
    t.status.done = s.status.done ∨ (t.status.done = false ∧ clearsDone s op) := by
  cases h with
  | sticky ie accerr overrun rdata => exact .inl rfl
  | reset h => exact .inr ⟨rfl, .inl h⟩
  | clear data h =>
    cases hbit : data.getLsbD 1 with
    | false => exact .inl (by rw [State.setStatus_status, Status.writeOneToClear, hbit]; exact Bool.and_true _)
    | true =>
      refine .inr ⟨?_, .inr (.inl ⟨data, h, hbit⟩)⟩
      rw [State.setStatus_status, Status.writeOneToClear, hbit]
      exact Bool.and_false _
  | accept w h idle => exact .inr ⟨rfl, .inr (.inr ⟨idle, w, h⟩)⟩
  | store t idle frame canonical => exact .inl (by rw [frame])

/-- A step keeps DONE, or sets it as the core completes, or clears it by a host operation (R113). -/
theorem step_done {s t : State} (hstep : step s = .next t) :
    t.status.done = s.status.done ∨
      (t.status.done = true ∧ s.status.busy = true ∧ s.busyLeft = 0 ∧ t.status.busy = false) ∨
      (t.status.done = false ∧ ∃ op, s.inputs.head? = some op ∧ clearsDone s op) := by
  rcases step_cases hstep with ⟨hb, h0, hrun⟩ | ⟨-, rfl⟩
  · rcases runCommand_busy_done hrun with h | ⟨hb', hd'⟩
    · exact .inl (congrArg Status.done h)
    · exact .inr (.inl ⟨hd', hb, h0, hb'⟩)
  · rcases hostStep_cases s with ⟨-, h⟩ | ⟨op, rest, hin, h⟩ <;> rw [h]
    · exact .inl rfl
    · rcases done_hostEffect (applyHostOp_effect op { s with inputs := rest, busyLeft := s.busyLeft - 1 }) with
        hsame | ⟨hfall, hcause⟩
      · exact .inl hsame
      · exact .inr (.inr ⟨hfall, op, by rw [hin]; rfl, hcause⟩)

/-- Settles O48. -/
theorem doneOnlyByCompletion : Obligations.DoneOnlyByCompletion := by
  intro s t hstep
  rcases step_done hstep with hsame | ⟨hd', hcore⟩ | ⟨hd', hhost⟩
  · rw [hsame]
    exact ⟨fun h h' => by simp [h] at h', fun h h' => by simp [h] at h'⟩
  · exact ⟨fun _ _ => hcore, fun _ h => by simp [hd'] at h⟩
  · exact ⟨fun _ h => by simp [hd'] at h, fun _ _ => hhost⟩

/-! ## A running command -/

/-- While a command runs, a host operation that is no reset changes only CTRL.IE, the W1C flags and the last read data. -/
theorem hostEffect_of_busy {op : HostOp} {s t : State} (h : HostEffect op s t) (hb : s.status.busy = true)
    (hq : quiet op) :
    t = { s with ie := t.ie, status := t.status, rdata := t.rdata } ∧ t.status.busy = true ∧
      t.status.errCode = s.status.errCode := by
  cases h with
  | sticky ie accerr overrun rdata => exact ⟨rfl, hb, rfl⟩
  | reset h => exact absurd hq h
  | clear data h => exact ⟨rfl, hb, rfl⟩
  | accept w h idle => simp [hb] at idle
  | store t idle frame canonical => simp [hb] at idle

/-- Settles O49. -/
theorem runningCommandIsUndisturbed : Obligations.RunningCommandIsUndisturbed :=
  fun op s hb hq => hostEffect_of_busy (applyHostOp_effect op s) hb hq

end Sys2Proof.Proofs
end

section
/-! PROOF. O51 (register reads), O52 (register writes), O56 (CMD) and O57 (STATUS): the access of each register's address is
readReg, writeReg or partialRegWrite of that register. -/

namespace Sys2Proof.Proofs

open Sys2Proof Sys2Proof.Machine Sys2Proof.Spec

/-! ## Reads -/

/-- Bit k of the word the host reads from STATUS, by the place of its field (R112). -/
theorem getLsbD_toWord (f : Status) (k : Nat) :
    f.toWord.getLsbD k =
      if k < 1 then f.busy
      else if k < 2 then f.done
      else if k < 3 then f.err
      else if k < 4 then false
      else if k < 8 then f.errCode.getLsbD (k - 4)
      else if k < 9 then f.accerr
      else if k < 10 then f.overrun
      else if k < 11 then f.noncanon
      else false := by
  change @BitVec.getLsbD (21 + 1 + 1 + 1 + 4 + 1 + 1 + 1 + 1) f.toWord k = _
  simp only [Status.toWord, BitVec.getLsbD_append, BitVec.getLsbD_zero]
  by_cases hk : k < 11
  · interval_cases k <;> simp
  · obtain ⟨n, rfl⟩ := Nat.exists_eq_add_of_le (Nat.le_of_not_lt hk)
    repeat rw [if_neg (by omega)]
theorem extractLsb'_errCode_toWord (f : Status) : f.toWord.extractLsb' 4 4 = f.errCode := by
  refine BitVec.eq_of_getLsbD_eq fun k hk => ?_
  rw [BitVec.getLsbD_extractLsb', getLsbD_toWord, decide_eq_true hk, Bool.true_and, if_neg (by omega), if_neg (by omega),
    if_neg (by omega), if_neg (by omega), if_pos (by omega), Nat.add_sub_cancel_left]

theorem extractLsb'_high_toWord (f : Status) : f.toWord.extractLsb' 11 21 = 0 := by
  refine BitVec.eq_of_getLsbD_eq fun k hk => ?_
  rw [BitVec.getLsbD_extractLsb', getLsbD_toWord, BitVec.ofNat_eq_ofNat, BitVec.getLsbD_zero]
  repeat rw [if_neg (by omega)]
  exact Bool.and_false _

theorem getLsbD_readReg_ctrl (s : State) : (readReg .ctrl s).getLsbD 0 = s.ie := by
  simp [readReg]

theorem readReg_ctrl (s : State) : readReg .ctrl s = if s.ie then 1 else 0 := by
  cases h : s.ie <;> simp [readReg, h]

/-- Settles O51. -/
theorem registerReads : Obligations.RegisterReads := by
  intro s
  have read (r : Reg) {w : Word} (h : readReg r s = w) : hostRead (regAddress r) s = (w, s) :=
    (hostRead_register r s).trans (congrArg (·, s) h)
  have hctrl : hostRead 0x004 s = (readReg .ctrl s, s) := read .ctrl rfl
  have hstatus : hostRead 0x008 s = (s.status.toWord, s) := read .status rfl
  have bit := getLsbD_toWord s.status
  refine ⟨read .id rfl, hctrl.trans (congrArg (·, s) (readReg_ctrl s)), read .cmd rfl, read .opa ?_, read .opb ?_,
    read .opx rfl, read .res ?_, read .nonce ?_, read .consumed rfl, read .hsrc ?_, read .hlen ?_, read .hdst ?_,
    read .holen ?_, ?_⟩
  case refine_9 =>
    rw [hctrl, hstatus]
    refine ⟨rfl, bit 0, bit 1, bit 2, bit 3, extractLsb'_errCode_toWord _, bit 8, bit 9, bit 10,
      extractLsb'_high_toWord _, ?_, fun addr ha h => hostRead_empty ha (regionOf_empty h) s⟩
    rw [getLsbD_readReg_ctrl, show s.status.toWord.getLsbD 1 = s.status.done from bit 1, State.irq, Bool.and_eq_true]
  all_goals exact (BitVec.ofNat_toNat _ _).symm

/-! ## Writes -/

theorem writeOperand_idle {s : State} (h : s.status.busy = false) (t : State) : writeOperand s t = t := by
  simp [writeOperand, h]

theorem writeOperand_busy {s : State} (h : s.status.busy = true) (t : State) : writeOperand s t = s.refuse := by
  simp [writeOperand, h]

/-- The registers that a full-word write stores a field of, while idle (R118, R119, R123, R125). -/
def operandRegisters : List Reg := [.opa, .opb, .opx, .nonce, .hsrc, .hlen, .hdst, .holen]

theorem writeReg_operand_busy {r : Reg} (hr : r ∈ operandRegisters) {s : State} (h : s.status.busy = true) (data : Word) :
    writeReg r data s = s.refuse := by
  simp only [operandRegisters, List.mem_cons, List.not_mem_nil, or_false] at hr
  rcases hr with rfl | rfl | rfl | rfl | rfl | rfl | rfl | rfl <;> exact writeOperand_busy h _

theorem partialRegWrite_refused {r : Reg} {s : State} (h : r ≠ .cmd ∨ s.status.busy = false) :
    partialRegWrite r s = s.refuse := by
  rcases partialRegWrite_cases r s with hr | ⟨hcmd, hb, -⟩
  · exact hr
  · rcases h with h | h
    · exact absurd hcmd h
    · simp [hb] at h

/-- Settles O52. -/
theorem registerWrites : Obligations.RegisterWrites := by
  intro data s
  refine ⟨fun hidle => ?_, fun hbusy => ?_, fun h1 => ?_, ?_, fun addr ha h => ?_, fun wstrb h0 hF => ⟨?_, fun hidle => ?_,
    fun hbusy => ?_, fun addr ha h => ?_⟩, fun addr ha => hostWrite_no_lane ha data s⟩
  · have store (r : Reg) {t : State} (h : writeReg r data s = writeOperand s t) : hostWrite (regAddress r) data 0xF s = t := by
      rw [hostWrite_register, h, writeOperand_idle hidle]
    exact ⟨store .opa rfl, store .opb rfl, store .opx rfl, store .nonce rfl, store .hsrc rfl, store .hlen rfl,
      store .hdst rfl, store .holen rfl⟩
  · show ∀ addr ∈ operandRegisters.map regAddress, _
    rw [List.forall_mem_map]
    intro r hr
    rw [hostWrite_register, writeReg_operand_busy hr hbusy]
    rfl
  · exact (hostWrite_register .ctrl data s).trans (if_neg (by rw [h1]; exact Bool.false_ne_true))
  · show ∀ addr ∈ [Reg.id, .res, .consumed].map regAddress, _
    simp only [List.forall_mem_map, hostWrite_register, List.forall_mem_cons]
    exact ⟨rfl, rfl, rfl, nofun⟩
  · exact hostWrite_empty ha (regionOf_empty h) data _ s
  · show ∀ addr ∈ [Reg.id, .ctrl, .status, .opa, .opb, .opx, .res, .nonce, .consumed, .hsrc, .hlen, .hdst, .holen].map
      regAddress, _
    rw [List.forall_mem_map]
    intro r hr
    rw [hostWrite_register_partial r data h0 hF, partialRegWrite_refused (.inl (by rintro rfl; simp at hr))]
    rfl
  · exact (hostWrite_register_partial .cmd data h0 hF s).trans (partialRegWrite_refused (.inr hidle))
  · exact (hostWrite_register_partial .cmd data h0 hF s).trans (if_pos hbusy)
  · exact hostWrite_empty ha (regionOf_empty h) data wstrb s

/-- Settles O56. -/
theorem cmdWrite : Obligations.CmdWrite := by
  refine fun w s => ⟨fun hidle => ?_, fun hbusy => ?_⟩
  · have haccept : hostWrite 0x00C w 0xF s = acceptCommand w s :=
      (hostWrite_register .cmd w s).trans (if_neg (by rw [hidle]; exact Bool.false_ne_true))
    rw [haccept]
    rfl
  · exact (hostWrite_register .cmd w s).trans (if_pos hbusy)

/-- Settles O57. -/
theorem statusWriteOneToClear : Obligations.StatusWriteOneToClear := by
  intro data s
  have hclear (f b : Bool) : (f && !b) = if b then false else f := by cases b <;> simp
  refine (hostWrite_register .status data s).trans ?_
  simp only [writeReg, State.setStatus, Status.writeOneToClear, hclear]

end Sys2Proof.Proofs
end

section
/-! PROOF. O47: which command writes RES, NONCE, CONSUMED, NONCANON and the slots. Every command's meaning is a chain of checks,
each of which ends it with nothing of these written, before one write. -/

namespace Sys2Proof.Proofs

open Sys2Proof Sys2Proof.Machine Sys2Proof.Spec
open Sys2Proof.Laws.OpcodeByte (low_append)

/-- The commands that write RES (R122). -/
def resOpcodes : List (BitVec 8) := [0x01#8, 0x02#8, 0x03#8, 0x04#8, 0x51#8]

/-- The commands that write CONSUMED (R124). -/
def consumedOpcodes : List (BitVec 8) := [0x32#8, 0x33#8]

/-- The commands that decode 12-bit values (R117). -/
def noncanonOpcodes : List (BitVec 8) := [0x41#8, 0x61#8, 0x69#8, 0x6A#8]

/-- The commands with neither a slot nor a wipe as their destination. -/
def slotlessOpcodes : List (BitVec 8) := [0x00#8, 0x01#8, 0x02#8, 0x03#8, 0x04#8, 0x40#8, 0x50#8, 0x51#8]

/-- From `s` to `t`, RES, NONCE, CONSUMED, NONCANON and the slots changed only as the command with opcode `op` may change
them. -/
structure WritesOwnResults (op : BitVec 8) (s t : State) : Prop where
  res : t.res ≠ s.res → op ∈ resOpcodes
  nonce : t.nonce ≠ s.nonce → op = 0x31#8
  consumed : t.consumed ≠ s.consumed → op ∈ consumedOpcodes
  noncanon : t.status.noncanon ≠ s.status.noncanon → op ∈ noncanonOpcodes ∧ t.status.noncanon = true
  slots : t.slots ≠ s.slots → op ∉ slotlessOpcodes

/-- `i` writes its own results only, ending with effect `r`. -/
def EndsWithOwnResults (i : Instr) (s : State) (r : Effect) : Prop := WritesOwnResults (opcodeOf i) s (s.complete r)

section Shapes

variable {i : Instr} {s : State}

theorem EndsWithOwnResults.pending : EndsWithOwnResults i s .pending :=
  ⟨(absurd rfl ·), (absurd rfl ·), (absurd rfl ·), (absurd rfl ·), (absurd rfl ·)⟩

theorem EndsWithOwnResults.error {e : CmdError} : EndsWithOwnResults i s (.error e s) :=
  ⟨(absurd rfl ·), (absurd rfl ·), (absurd rfl ·), (absurd rfl ·), (absurd rfl ·)⟩

/-- A check of the operands before the rest of the command. -/
theorem EndsWithOwnResults.check {c : Prop} [Decidable c] {e : CmdError} {r : Effect} (h : EndsWithOwnResults i s r) :
    EndsWithOwnResults i s (if c then .error e s else r) := by
  split
  · exact .error
  · exact h

/-- A success that writes none of them. -/
theorem EndsWithOwnResults.none : EndsWithOwnResults i s (.done s) :=
  ⟨(absurd rfl ·), (absurd rfl ·), (absurd rfl ·), (absurd rfl ·), (absurd rfl ·)⟩

theorem EndsWithOwnResults.bram {m : Memory} : EndsWithOwnResults i s (.done (s.setBram m)) :=
  ⟨(absurd rfl ·), (absurd rfl ·), (absurd rfl ·), (absurd rfl ·), (absurd rfl ·)⟩

variable {op : BitVec 8}

theorem EndsWithOwnResults.scalar {v : Nat} (hop : opcodeOf i = op) (hres : op ∈ resOpcodes) :
    EndsWithOwnResults i s (.done (s.setRes v)) :=
  ⟨fun _ => hop ▸ hres, (absurd rfl ·), (absurd rfl ·), (absurd rfl ·), (absurd rfl ·)⟩

theorem EndsWithOwnResults.slot {k : Nat} {p : Poly} (hop : opcodeOf i = op) (hslots : op ∉ slotlessOpcodes) :
    EndsWithOwnResults i s (.done (s.setSlot k p)) :=
  ⟨(absurd rfl ·), (absurd rfl ·), (absurd rfl ·), (absurd rfl ·), fun _ => hop ▸ hslots⟩

theorem EndsWithOwnResults.slotNonce {k : Nat} {p : Poly} {v : BitVec 8} (hop : opcodeOf i = 0x31#8) :
    EndsWithOwnResults i s (.done ((s.setSlot k p).setNonce v)) :=
  ⟨(absurd rfl ·), fun _ => hop, (absurd rfl ·), (absurd rfl ·), fun _ => hop ▸ by decide⟩

theorem EndsWithOwnResults.consumed {n : Nat} {e : CmdError} (hop : opcodeOf i = op) (hcons : op ∈ consumedOpcodes) :
    EndsWithOwnResults i s (.error e (s.setConsumed n)) :=
  ⟨(absurd rfl ·), (absurd rfl ·), fun _ => hop ▸ hcons, (absurd rfl ·), (absurd rfl ·)⟩

theorem EndsWithOwnResults.slotConsumed {k n : Nat} {p : Poly} (hop : opcodeOf i = op)
    (hcons : op ∈ consumedOpcodes) (hslots : op ∉ slotlessOpcodes) :
    EndsWithOwnResults i s (.done ((s.setSlot k p).setConsumed n)) :=
  ⟨(absurd rfl ·), (absurd rfl ·), fun _ => hop ▸ hcons, (absurd rfl ·), fun _ => hop ▸ hslots⟩

/-- A success that writes slots and the byte RAM, and NONCANON as `nc` says. -/
theorem EndsWithOwnResults.decoded {t : State} {nc : Bool} (hop : opcodeOf i = op)
    (frame : t = { s with slots := t.slots, bram := t.bram, status := s.status.flagNoncanon nc })
    (hnc : op ∈ noncanonOpcodes ∨ nc = false) (hslots : op ∉ slotlessOpcodes) : EndsWithOwnResults i s (.done t) := by
  rw [frame]
  refine ⟨(absurd rfl ·), (absurd rfl ·), (absurd rfl ·), fun h => ?_, fun _ => hop ▸ hslots⟩
  cases nc with
  | false => exact absurd (Bool.or_false _) h
  | true => exact ⟨hop ▸ hnc.resolve_right Bool.true_eq_false.mp, Bool.or_true _⟩

theorem EndsWithOwnResults.vec {k : Nat} {v : Fin 4 → Poly} (hop : opcodeOf i = op) (hslots : op ∉ slotlessOpcodes) :
    EndsWithOwnResults i s (.done (s.setVec k v)) := by
  refine .decoded hop (nc := false) ?_ (.inr rfl) hslots
  rw [Status.flagNoncanon_false]
  simp only [State.setVec, State.setSlot, State.setSlots]

theorem EndsWithOwnResults.wiped {t : State} {extra : List (Nat × Nat)} {nc : Bool} (hop : opcodeOf i = op)
    (frame : t = { s with bram := t.bram, status := s.status.flagNoncanon nc })
    (hnc : op ∈ noncanonOpcodes ∨ nc = false) (hslots : op ∉ slotlessOpcodes) :
    EndsWithOwnResults i s (.done (wipe extra t)) := by
  refine .decoded hop (nc := nc) ?_ hnc hslots
  rw [frame]
  rfl

end Shapes

/-- Every command writes its own results only. -/
theorem exec_writesOwnResults (i : Instr) (s : State) :
    ∃ r, exec i s = .next (s.complete r) ∧ EndsWithOwnResults i s r := by
  cases i with
  | nop zero => exact ⟨_, rfl, .check .none⟩
  | madd zero | msub zero | mmul zero | mred zero | cteq zero =>
    exact ⟨_, rfl, .check (.check (.scalar (low_append _ _) (by decide)))⟩
  | ntt zero rd | intt zero rd | basemul zero rs2 rs1 rd | padd zero rs2 rs1 rd | psub zero rs2 rs1 rd =>
    exact ⟨_, rfl, .check (.slot (low_append _ _) (by decide))⟩
  | vntt zero rd | vintt zero rd =>
    exact ⟨_, rfl, .check (.check (.vec (low_append _ _) (by decide)))⟩
  | vadd zero rs2 rs1 rd | matvec zero rs2 rs1 rd | matvect zero rs2 rs1 rd =>
    exact ⟨_, rfl, .check (.check (.check (.vec (low_append _ _) (by decide))))⟩
  | dot zero rs2 rs1 rd => exact ⟨_, rfl, .check (.check (.check (.slot (low_append _ _) (by decide))))⟩
  | cbd addr zero eta rd =>
    exact ⟨_, rfl, .check (.check (.slot (low_append _ _) (by decide)))⟩
  | cbdprf addr zero eta rd => exact ⟨_, rfl, .check (.check (.slotNonce (low_append _ _)))⟩
  | sntt addr zero col row rd =>
    refine ⟨_, rfl, .check (.check ?_)⟩
    split
    · exact .slotConsumed (low_append _ _) (by decide) (by decide)
    · exact .pending
  | snttb addr zero rd =>
    refine ⟨_, rfl, .check ?_⟩
    split
    · exact .slotConsumed (low_append _ _) (by decide) (by decide)
    · exact .consumed (low_append _ _) (by decide)
  | enc addr zero dcode rs =>
    refine ⟨_, rfl, ?_⟩
    split
    · exact .error
    · exact .check (.check (.check .bram))
  | dec addr zero dcode rd =>
    refine ⟨_, rfl, ?_⟩
    split
    · exact .error
    · exact .check (.check (.decoded (low_append _ _) rfl (.inl (by decide)) (by decide)))
  | cmpr zero fn rs2 rs1 rd =>
    refine ⟨_, rfl, .check ?_⟩
    split
    · exact .error
    · exact .slot (low_append _ _) (by decide)
  | dcmp zero fn rs2 rs1 rd =>
    refine ⟨_, rfl, .check ?_⟩
    split
    · exact .error
    · exact .check (.slot (low_append _ _) (by decide))
  | hash zero fn regs => exact ⟨_, rfl, .check (.check (.check (.check .bram)))⟩
  | kpkeKeygen zero | mlkemKeygen zero =>
    refine ⟨_, rfl, .check ?_⟩
    split
    · exact .pending
    · exact .wiped (low_append _ _) (setMailbox_setMailbox_frame _ _ _ _ _) (.inr rfl) (by decide)
  | kpkeEnc zero | mlkemDecaps zero =>
    refine ⟨_, rfl, .check ?_⟩
    split
    · exact .pending
    · exact .wiped (low_append _ _) (setMailbox_setStatus_frame _ _ _ _) (.inl (by decide)) (by decide)
  | kpkeDec zero => exact ⟨_, rfl, .check (.wiped (low_append _ _) (setMailbox_frame _ _ _) (.inr rfl) (by decide))⟩
  | mlkemEncaps zero =>
    refine ⟨_, rfl, .check ?_⟩
    split
    · exact .pending
    · exact .wiped (low_append _ _) (setMailbox_setMailbox_setStatus_frame _ _ _ _ _ _) (.inl (by decide)) (by decide)
  | wipe zero =>
    refine ⟨_, rfl, .check (.decoded (nc := false) (low_append _ _) ?_ (.inr rfl) (by decide))⟩
    rw [Status.flagNoncanon_false]
    rfl

/-- Settles O47. -/
theorem onlyTheirCommandsWriteResults : Obligations.OnlyTheirCommandsWriteResults := by
  intro i s
  obtain ⟨r, hexec, ⟨hres, hnonce, hconsumed, hnoncanon, hslots⟩⟩ := exec_writesOwnResults i s
  exact ⟨_, hexec, hres, hnonce, hconsumed, hnoncanon, hslots⟩

end Sys2Proof.Proofs
end

section
/-! PROOF. When the sampling functions have a result: exactly when each SHAKE128 stream has yielded 256 values in the chunks
examined (R505, R560), and never less with more chunks. -/

namespace Sys2Proof.Proofs

open Sys2Proof Sys2Proof.Machine Sys2Proof.Spec

theorem genEntry_isSome_iff (n : Nat) (rho : List Byte) (i j : Nat) :
    (genEntry n rho i j).isSome = true ↔ 256 ≤ (accepted (stream rho i j) n).length := by
  rw [genEntry, xofA_eq_stream]
  by_cases h : 256 ≤ (accepted (stream rho i j) n).length
  · obtain ⟨k, -, -, hfound⟩ := sampleNTT_of_ready h
    simp [hfound, h]
  · simp [sampleNTT_of_not_ready h, h]

theorem genA_eq_none_iff (n : Nat) (rho : List Byte) : genA n rho = none ↔ ¬matrixReady n rho := by
  simp [genA, genEntry_isSome_iff, matrixReady]

theorem keyGenRho_eq (d : List Byte) : bytesAt (hashG (d ++ byteOf 4)) 0 32 = keyGenRho d := rfl

theorem kpkeKeyGen_eq_none_iff (n : Nat) (d : List Byte) : kpkeKeyGen n d = none ↔ ¬matrixReady n (keyGenRho d) := by
  rw [← genA_eq_none_iff, ← keyGenRho_eq]
  simp only [kpkeKeyGen]
  split <;> simp_all

theorem mlkemKeyGen_eq_none_iff (n : Nat) (d z : List Byte) :
    mlkemKeyGen n d z = none ↔ ¬matrixReady n (keyGenRho d) := by
  rw [← kpkeKeyGen_eq_none_iff, mlkemKeyGen]
  split <;> simp_all

theorem kpkeEncrypt_eq_none_iff (n : Nat) (ek m r : List Byte) :
    kpkeEncrypt n ek m r = none ↔ ¬matrixReady n (bytesAt ek 1536 32) := by
  rw [← genA_eq_none_iff, kpkeEncrypt]
  split <;> simp_all

theorem mlkemEncaps_eq_none_iff (n : Nat) (ek m : List Byte) :
    mlkemEncaps n ek m = none ↔ ¬matrixReady n (bytesAt ek 1536 32) := by
  unfold mlkemEncaps
  dsimp only
  split
  next h => exact iff_of_true rfl ((kpkeEncrypt_eq_none_iff _ _ _ _).1 h)
  next h => exact iff_of_false nofun (mt (kpkeEncrypt_eq_none_iff _ _ _ _).2 (by rw [h]; nofun))

theorem mlkemDecaps_eq_none_iff (n : Nat) (dk c : List Byte) :
    mlkemDecaps n dk c = none ↔ ¬matrixReady n (bytesAt (bytesAt dk 1536 1568) 1536 32) := by
  unfold mlkemDecaps
  dsimp only
  split
  next h => exact iff_of_true rfl ((kpkeEncrypt_eq_none_iff _ _ _ _).1 h)
  next h => exact iff_of_false nofun (mt (kpkeEncrypt_eq_none_iff _ _ _ _).2 (by rw [h]; nofun))

/-- A part of a string read from the byte RAM is the string read at the part's address. -/
theorem bytesAt_readBytes (m : Memory) {a n b k : Nat} (h : b + k ≤ n) :
    bytesAt (m.readBytes a n) b k = m.readBytes (a + b) k := by
  refine List.ext_getElem (by simp; omega) fun i h1 h2 => ?_
  simp [bytesAt, Memory.readBytes, Nat.add_assoc]

theorem matrixReady_mono {m n : Nat} (h : m ≤ n) {rho : List Byte} (hm : matrixReady m rho) : matrixReady n rho :=
  fun i j hi hj => (hm i j hi hj).trans (length_accepted_mono _ h)

/-- A result defined within some chunks is defined within more (R505: no cap). -/
theorem definedWithin_mono {m n : Nat} (h : m ≤ n) {s : State} {i : Instr} (hm : definedWithin m s i) :
    definedWithin n s i := by
  cases i with
  | sntt addr zero col row rd => exact hm.imp_right (Or.imp_right (·.trans (length_accepted_mono _ h)))
  | kpkeKeygen zero | mlkemKeygen zero | kpkeEnc zero | mlkemEncaps zero | mlkemDecaps zero =>
    exact hm.imp_right (matrixReady_mono h)
  | _ => trivial

/-- Whether the result is defined depends on the byte RAM only. -/
theorem definedWithin_congr {s t : State} (h : t.bram = s.bram) (c : Nat) (i : Instr) :
    definedWithin c t i ↔ definedWithin c s i := by
  cases i <;> simp only [definedWithin, h]

end Sys2Proof.Proofs
end

section
/-! PROOF. O59: a running command completes exactly when its result is defined. A core step of a command whose result is not
defined yet examines one more chunk of each stream (log 3), and no quiet host step changes what the command reads, so the number
of steps still to pass falls by one at every step. -/

namespace Sys2Proof.Proofs

open Sys2Proof Sys2Proof.Machine Sys2Proof.Spec

/-! ## A command is pending exactly while its result is not defined -/

/-- A check before a result that is defined when `d` holds. -/
theorem check_pending_iff {s : State} {e : CmdError} {r : Effect} {c d : Prop} [Decidable c] (h : r = .pending ↔ ¬d) :
    (if c then .error e s else r) = .pending ↔ ¬(c ∨ d) := by
  by_cases hc : c <;> simp [hc, h]

/-- ρ inside the encapsulation key's region and inside the decapsulation key's (R150). -/
theorem mailbox_ek_rho (s : State) : bytesAt (s.mailbox Mailbox.ek) 1536 32 = s.bram.readBytes 0x1260 32 :=
  bytesAt_readBytes _ (by decide)

theorem mailbox_dk_rho (s : State) :
    bytesAt (bytesAt (s.mailbox Mailbox.dk) 1536 1568) 1536 32 = s.bram.readBytes 0x0C00 32 := by
  rw [State.mailbox, bytesAt_readBytes _ (by decide), bytesAt_readBytes _ (by decide)]
  rfl

/-- A command ends in `pending` exactly while its result is not defined (R505). -/
theorem exec_pending_iff (i : Instr) (s : State) :
    ∃ r, exec i s = .next (s.complete r) ∧ (r = .pending ↔ ¬definedWithin s.chunks s i) := by
  cases i with
  | sntt addr zero col row rd =>
    simp only [definedWithin, ← inByteRam_eq_false_iff, ← xofA_eq_stream]
    refine ⟨_, rfl, check_pending_iff (check_pending_iff ?_)⟩
    rw [xofA_eq_stream]
    by_cases h : 256 ≤ (accepted (stream (s.bram.readBytes addr.toNat 32) row.toNat col.toNat) s.chunks).length
    · obtain ⟨k, -, -, hfound⟩ := sampleNTT_of_ready h
      rw [hfound]
      exact iff_of_false nofun (not_not_intro h)
    · rw [sampleNTT_of_not_ready h]
      exact iff_of_true rfl h
  | kpkeKeygen zero =>
    refine ⟨_, rfl, check_pending_iff (Iff.trans ?_ (kpkeKeyGen_eq_none_iff _ (s.mailbox Mailbox.seedD)))⟩
    split <;> simp [*]
  | mlkemKeygen zero =>
    refine ⟨_, rfl, check_pending_iff (Iff.trans ?_
      (mlkemKeyGen_eq_none_iff _ (s.mailbox Mailbox.seedD) (s.mailbox Mailbox.seedZ)))⟩
    split <;> simp [*]
  | kpkeEnc zero =>
    simp only [definedWithin, ← mailbox_ek_rho]
    refine ⟨_, rfl, check_pending_iff (Iff.trans ?_
      (kpkeEncrypt_eq_none_iff _ _ (s.mailbox Mailbox.msg) (s.mailbox Mailbox.coins)))⟩
    split <;> simp [*]
  | mlkemEncaps zero =>
    simp only [definedWithin, ← mailbox_ek_rho]
    refine ⟨_, rfl, check_pending_iff (Iff.trans ?_
      (mlkemEncaps_eq_none_iff _ _ (s.mailbox Mailbox.msg)))⟩
    split <;> simp [*]
  | mlkemDecaps zero =>
    simp only [definedWithin, ← mailbox_dk_rho]
    refine ⟨_, rfl, check_pending_iff (Iff.trans ?_
      (mlkemDecaps_eq_none_iff _ _ (s.mailbox Mailbox.ct)))⟩
    split <;> simp [*]
  | _ =>
    -- every branch of the other commands ends in an error or a success
    refine ⟨_, rfl, iff_of_false ?_ (not_not_intro trivial)⟩
    repeat' split
    all_goals exact nofun

/-! ## The running command -/

/-- The latched command's result is defined once c chunks of each of its streams have been examined. -/
def commandDefined (c : Nat) (s : State) : Prop := ∀ i, decode s.cmd = .ok i → definedWithin c s i

theorem commandDefined_mono {m n : Nat} (h : m ≤ n) {s : State} (hm : commandDefined m s) : commandDefined n s :=
  fun i hi => definedWithin_mono h (hm i hi)

theorem commandDefined_congr {s t : State} (hcmd : t.cmd = s.cmd) (hbram : t.bram = s.bram) (c : Nat) :
    commandDefined c t ↔ commandDefined c s := by
  simp only [commandDefined, hcmd, definedWithin_congr hbram]

/-- The core's step completes the command when its result is defined. -/
theorem runCommand_of_defined {s : State} (h : commandDefined s.chunks s) :
    ∃ t, runCommand s = .next t ∧ t.status.busy = false ∧ t.status.done = true := by
  unfold runCommand
  split
  next i hi =>
    obtain ⟨r, hexec, hr⟩ := exec_pending_iff i s
    refine ⟨_, hexec, ?_⟩
    cases r with
    | done t => exact ⟨rfl, rfl⟩
    | error e t => exact ⟨rfl, rfl⟩
    | pending => exact absurd (h i hi) (hr.1 rfl)
  next => exact ⟨_, rfl, rfl, rfl⟩

/-- Otherwise it only examines one more chunk of each stream. -/
theorem runCommand_of_not_defined {s : State} (h : ¬commandDefined s.chunks s) : runCommand s = .next s.stall := by
  simp only [commandDefined, not_forall] at h
  obtain ⟨i, hi, hnot⟩ := h
  obtain ⟨r, hexec, hr⟩ := exec_pending_iff i s
  rw [runCommand, hi]
  dsimp only
  rw [hexec, hr.2 hnot, complete_pending]

/-- A command runs and no pending host operation resets the core. -/
structure RunsQuietly (s : State) : Prop where
  busy : s.status.busy = true
  inputsQuiet : ∀ op ∈ s.inputs, quiet op

/-- A host step leaves the running command as it was, and one host step of its waiting has passed. -/
theorem hostStep_runsQuietly {s : State} (h : RunsQuietly s) :
    RunsQuietly (hostStep s) ∧ (hostStep s).cmd = s.cmd ∧ (hostStep s).bram = s.bram ∧
      (hostStep s).chunks = s.chunks ∧ (hostStep s).busyLeft = s.busyLeft - 1 := by
  rcases hostStep_cases s with ⟨hin, hstep⟩ | ⟨op, rest, hin, hstep⟩ <;> rw [hstep]
  · exact ⟨⟨h.busy, h.inputsQuiet⟩, rfl, rfl, rfl, rfl⟩
  · have hquiet : ∀ o ∈ op :: rest, quiet o := hin ▸ h.inputsQuiet
    have hundisturbed := runningCommandIsUndisturbed op { s with inputs := rest, busyLeft := s.busyLeft - 1 } h.busy
      (hquiet op List.mem_cons_self)
    obtain ⟨hframe, hbusy, -⟩ := hundisturbed
    rw [hframe]
    exact ⟨⟨hbusy, fun o ho => hquiet o (List.mem_cons_of_mem _ ho)⟩, rfl, rfl, rfl, rfl⟩

theorem stall_runsQuietly {s : State} (h : RunsQuietly s) : RunsQuietly s.stall := ⟨h.busy, h.inputsQuiet⟩

/-! ## Runs -/

theorem run_succ_of_step (M : Host.Core) {s t : M.State} (h : M.step s = .next t) (n : Nat) :
    M.run (n + 1) s = M.run n t := by
  rw [Host.Core.run, h]

theorem run_succ {s t : State} (h : step s = .next t) (n : Nat) : core.run (n + 1) s = core.run n t :=
  run_succ_of_step core h n

/-- A command whose result is defined within c chunks completes: each step lowers `busyLeft + 2 * (c - chunks)` by one,
until the core moves with enough chunks examined. -/
theorem run_completes {c m : Nat} {s : State} (hs : RunsQuietly s) (hdef : commandDefined c s)
    (hm : s.busyLeft + 2 * (c - s.chunks) ≤ m) :
    ∃ n t, n ≤ m + 1 ∧ core.run n s = .next t ∧ t.status.busy = false ∧ t.status.done = true := by
  induction m generalizing s with
  | zero =>
    obtain ⟨t, hrun, ht⟩ := runCommand_of_defined (commandDefined_mono (show c ≤ s.chunks by omega) hdef)
    exact ⟨1, t, Nat.le_refl 1, run_succ (step_core hs.busy (by omega) |>.trans hrun) 0, ht⟩
  | succ m ih =>
    have after {u : State} (hstep : step s = .next u) (hu : RunsQuietly u) (hcmd : u.cmd = s.cmd) (hbram : u.bram = s.bram)
        (hmu : u.busyLeft + 2 * (c - u.chunks) ≤ m) :
        ∃ n t, n ≤ m + 1 + 1 ∧ core.run n s = .next t ∧ t.status.busy = false ∧ t.status.done = true := by
      obtain ⟨n, t, hn, hrun, ht⟩ := ih hu ((commandDefined_congr hcmd hbram c).2 hdef) hmu
      exact ⟨n + 1, t, Nat.succ_le_succ hn, (run_succ hstep n).trans hrun, ht⟩
    by_cases h0 : s.busyLeft = 0
    · by_cases hnow : commandDefined s.chunks s
      · obtain ⟨t, hrun, ht⟩ := runCommand_of_defined hnow
        exact ⟨1, t, by omega, run_succ (step_core hs.busy h0 |>.trans hrun) 0, ht⟩
      · have hlt : s.chunks < c := Nat.lt_of_not_le fun hle => hnow (commandDefined_mono hle hdef)
        refine after (step_core hs.busy h0 |>.trans (runCommand_of_not_defined hnow)) (stall_runsQuietly hs) rfl rfl ?_
        rw [State.stall_busyLeft, State.stall_chunks]
        omega
    · obtain ⟨hquiet, hcmd, hbram, hchunks, hleft⟩ := hostStep_runsQuietly hs
      refine after (step_host (.inr (Nat.pos_of_ne_zero h0))) hquiet hcmd hbram ?_
      rw [hchunks, hleft]
      omega

/-- A run that ends the command has seen its result defined. -/
theorem defined_of_run {n : Nat} {s t : State} (hs : RunsQuietly s) (hrun : core.run n s = .next t)
    (ht : t.status.busy = false) : ∃ c, commandDefined c s := by
  induction n generalizing s with
  | zero =>
    cases hrun
    simp [hs.busy] at ht
  | succ n ih =>
    by_cases h0 : s.busyLeft = 0
    · by_cases hnow : commandDefined s.chunks s
      · exact ⟨s.chunks, hnow⟩
      · rw [run_succ (step_core hs.busy h0 |>.trans (runCommand_of_not_defined hnow))] at hrun
        obtain ⟨c, hc⟩ := ih (stall_runsQuietly hs) hrun
        exact ⟨c, (commandDefined_congr rfl rfl c).1 hc⟩
    · obtain ⟨hquiet, hcmd, hbram, -, -⟩ := hostStep_runsQuietly hs
      rw [run_succ (step_host (.inr (Nat.pos_of_ne_zero h0)))] at hrun
      obtain ⟨c, hc⟩ := ih hquiet hrun
      exact ⟨c, (commandDefined_congr hcmd hbram c).1 hc⟩

/-! ## The end state -/

theorem inputs_complete {i : Instr} {s : State} {r : Effect} (h : AllowedEffect i s r) :
    (s.complete r).inputs = s.inputs := by
  cases h with
  | pending => rfl
  | error e => rfl
  | stream addr zero rd n hi h3 hn => rfl
  | done t nc frame res consumed canonical => exact (congrArg State.inputs frame).trans rfl

/-- A host that has made its last transaction stays so. -/
theorem step_inputs_nil {s t : State} (hin : s.inputs = []) (h : step s = .next t) : t.inputs = [] := by
  rcases step_cases h with ⟨-, -, hrun⟩ | ⟨-, rfl⟩
  · rcases runCommand_effect s with ⟨i, r, -, heff, hr⟩ | ⟨-, heff⟩ <;> rw [heff] at hrun <;> cases hrun
    · exact (inputs_complete hr).trans hin
    · exact hin
  · rcases hostStep_cases s with ⟨-, hstep⟩ | ⟨op, rest, hcons, -⟩
    · rw [hstep]
      exact hin
    · rw [hin] at hcons
      cases hcons

/-- An end state is reached by a run. -/
theorem run_of_runToEnd {n : Nat} {s t : State} (h : runToEnd n s = some t) : ∃ m, core.run m s = .next t := by
  induction n generalizing s with
  | zero =>
    simp only [runToEnd, Option.ite_none_right_eq_some, Option.some.injEq] at h
    exact ⟨0, congrArg _ h.2⟩
  | succ n ih =>
    obtain ⟨u, hu⟩ := step_next s
    cases ho : s.programOver with
    | true =>
      rw [runToEnd_over ho] at h
      exact ⟨0, congrArg _ (Option.some.inj h)⟩
    | false =>
      rw [runToEnd_step ho hu] at h
      obtain ⟨m, hm⟩ := ih h
      exact ⟨m + 1, (run_succ hu m).trans hm⟩

/-- A run after the last transaction to a state with BUSY = 0 has met the end state. -/
theorem endState_of_run {n : Nat} {s t : State} (hin : s.inputs = []) (h : core.run n s = .next t)
    (ht : t.status.busy = false) : ∃ u, EndState s u := by
  induction n generalizing s with
  | zero =>
    cases h
    exact ⟨t, 0, runToEnd_over ((State.programOver_iff t).2 ⟨hin, ht⟩) 0⟩
  | succ n ih =>
    obtain ⟨v, hv⟩ := step_next s
    cases ho : s.programOver with
    | true => exact ⟨s, 0, runToEnd_over ho 0⟩
    | false =>
      rw [run_succ hv] at h
      obtain ⟨u, k, hk⟩ := ih (step_inputs_nil hin hv) h
      exact ⟨u, k + 1, (runToEnd_step ho hv k).trans hk⟩

/-- Settles O59. -/
theorem commandCompletesIffDefined : Obligations.CommandCompletesIffDefined := by
  intro s hb hq
  have hs : RunsQuietly s := ⟨hb, hq⟩
  have completes (c : Nat) (hdef : commandDefined c s) :
      ∃ n t, n ≤ s.busyLeft + 2 * c + 1 ∧ core.run n s = .next t ∧ t.status.busy = false ∧ t.status.done = true :=
    run_completes hs hdef (by omega)
  refine ⟨completes, fun n t hrun ht => defined_of_run hs hrun ht, fun hin =>
    ⟨fun ⟨t, n, hn⟩ => ?_, fun ⟨c, hdef⟩ => ?_⟩⟩
  · obtain ⟨m, hm⟩ := run_of_runToEnd hn
    exact defined_of_run hs hm ((State.programOver_iff t).1 (runToEnd_isOver hn)).2
  · obtain ⟨n, t, -, hrun, ht, -⟩ := completes c hdef
    exact endState_of_run hin hrun ht

end Sys2Proof.Proofs
end

section
/-! PROOF. O50 (misaligned accesses), O53 (the slot window), O54 (the byte RAM window) and O55 (the ROM window): where each
window's words lie in the address map (R201), what an access of each region does, and what the lanes of a byte-RAM write leave. -/

namespace Sys2Proof.Proofs

open Sys2Proof Sys2Proof.Machine Sys2Proof.Spec

/-! ## The windows by address -/

theorem isAligned_ofNat {n : Nat} (hn : n < 2 ^ 18) (h4 : n % 4 = 0) : isAligned (BitVec.ofNat 18 n) = true := by
  rw [isAligned_iff, BitVec.toNat_ofNat, Nat.mod_eq_of_lt hn, h4]

/-- Coefficient i of slot k (R210). -/
theorem regionOf_slotCell {k i : Nat} (hk : k < 64) (hi : i < 256) :
    regionOf (BitVec.ofNat 18 (0x10000 + 1024 * k + 4 * i)) = .slot k i := by
  simp only [regionOf, BitVec.toNat_ofNat]
  rw [Nat.mod_eq_of_lt (by omega), if_neg (by omega), if_pos (by omega),
    show (0x10000 + 1024 * k + 4 * i - 0x10000) / 1024 = k by omega,
    show (0x10000 + 1024 * k + 4 * i - 0x10000) % 1024 / 4 = i by omega]

/-- The byte-RAM word at byte address k (R220). -/
theorem regionOf_bramWord {k : Nat} (hk : k < 8192) : regionOf (BitVec.ofNat 18 (0x20000 + k)) = .bram k := by
  simp only [regionOf, BitVec.toNat_ofNat]
  rw [Nat.mod_eq_of_lt (by omega), if_neg (by omega), if_neg (by omega), if_pos (by omega), Nat.add_sub_cancel_left]

/-- ROM word k (R230). -/
theorem regionOf_romWord {k : Nat} (hk : k < 384) : regionOf (BitVec.ofNat 18 (0x30000 + 4 * k)) = .rom k := by
  simp only [regionOf, BitVec.toNat_ofNat]
  rw [Nat.mod_eq_of_lt (by omega), if_neg (by omega), if_neg (by omega), if_neg (by omega), if_pos (by omega),
    Nat.add_sub_cancel_left, Nat.mul_div_cancel_left k (by decide)]

/-! ## An access of each region -/

theorem hostRead_misaligned {addr : HostAddr} (ha : isAligned addr = false) (s : State) :
    hostRead addr s = (0, s.refuse) := by
  simp [hostRead, ha]

theorem hostWrite_misaligned {addr : HostAddr} (ha : isAligned addr = false) (data : Word) (wstrb : BitVec 4) (s : State) :
    hostWrite addr data wstrb s = s.refuse := by
  simp [hostWrite, ha]

section Windows

variable {addr : HostAddr} (ha : isAligned addr = true) {k i : Nat} {s : State}
include ha

theorem hostRead_slot_idle (h : regionOf addr = .slot k i) (idle : s.status.busy = false) :
    hostRead addr s = (BitVec.ofNat 32 ((s.slot k).get i).val, s) := by
  simp [hostRead, ha, h, idle]

theorem hostRead_slot_busy (h : regionOf addr = .slot k i) (busy : s.status.busy = true) :
    hostRead addr s = (0, s.refuse) := by
  simp [hostRead, ha, h, busy]

theorem hostWrite_slot_refused (h : regionOf addr = .slot k i) {data : Word} {wstrb : BitVec 4} (h0 : wstrb ≠ 0)
    (hno : s.status.busy = true ∨ wstrb ≠ 0xF ∨ 3329 ≤ data.toNat) : hostWrite addr data wstrb s = s.refuse := by
  simp only [hostWrite, ha, h, h0, hno, if_true, if_false, Bool.true_eq_false]

theorem hostWrite_slot_idle (h : regionOf addr = .slot k i) {data : Word} (idle : s.status.busy = false)
    (hlt : data.toNat < 3329) : hostWrite addr data 0xF s = s.setCoef k i (narrow data.toNat) := by
  simp [hostWrite, ha, h, idle, Nat.not_le.2 hlt]

theorem hostRead_bram_idle (h : regionOf addr = .bram k) (idle : s.status.busy = false) :
    hostRead addr s = (readLanes s.bram k, s) := by
  simp [hostRead, ha, h, idle]

theorem hostRead_bram_busy (h : regionOf addr = .bram k) (busy : s.status.busy = true) :
    hostRead addr s = (0, s.refuse) := by
  simp [hostRead, ha, h, busy]

/-- Strobe 0000 is the case of no lane. -/
theorem hostWrite_bram_idle (h : regionOf addr = .bram k) (idle : s.status.busy = false) (data : Word) (wstrb : BitVec 4) :
    hostWrite addr data wstrb s = s.setBram (writeLanes s.bram k data wstrb) := by
  by_cases h0 : wstrb = 0
  · subst h0
    exact hostWrite_no_lane ((isAligned_iff addr).1 ha) data s
  · simp only [hostWrite, ha, h, idle, h0, if_false, Bool.true_eq_false, Bool.false_eq_true]

theorem hostWrite_bram_busy (h : regionOf addr = .bram k) (busy : s.status.busy = true) (data : Word) {wstrb : BitVec 4}
    (h0 : wstrb ≠ 0) : hostWrite addr data wstrb s = s.refuse := by
  simp only [hostWrite, ha, h, h0, busy, if_true, if_false, Bool.true_eq_false]

theorem hostRead_rom (h : regionOf addr = .rom k) : hostRead addr s = (romWord k, s) := by
  simp [hostRead, ha, h]

theorem hostWrite_rom (h : regionOf addr = .rom k) (data : Word) {wstrb : BitVec 4} (h0 : wstrb ≠ 0) :
    hostWrite addr data wstrb s = s.refuse := by
  simp only [hostWrite, ha, h, h0, if_false, Bool.true_eq_false]

end Windows

/-! ## What a write leaves in the RAMs -/

/-- A coefficient read after a write of one coefficient (R212). -/
theorem get_slot_setCoef (s : State) {k : Nat} (hk : k < 64) (i : Nat) (c : Coef) (n : Nat) {m : Nat} (hm : m < 256) :
    ((s.setCoef k i c).slot n).get m = if n = k ∧ m = i then c else (s.slot n).get m := by
  rw [State.setCoef, State.slot_setSlot s hk]
  by_cases hn : n = k
  · subst hn
    simp only [if_true, true_and, Poly.get_ofFn _ hm]
  · rw [if_neg hn, if_neg fun h => hn h.1]

/-- One lane of a byte-RAM write: byte k+b takes data[8b+7:8b] when lane b is strobed (R220). -/
def writeLane (k : Nat) (data : Word) (wstrb : BitVec 4) (m : Memory) (b : Nat) : Memory :=
  if wstrb.getLsbD b then m.write (k + b) (data.extractLsb' (8 * b) 8) else m

theorem writeLanes_eq_foldl (m : Memory) (k : Nat) (data : Word) (wstrb : BitVec 4) :
    writeLanes m k data wstrb = (List.range 4).foldl (writeLane k data wstrb) m := rfl

theorem writeLane_wf {m : Memory} (h : m.wf = true) {k b : Nat} (hb : k + b < 8192) (data : Word) (wstrb : BitVec 4) :
    (writeLane k data wstrb m b).wf = true := by
  unfold writeLane
  split
  · exact Memory.write_wf h hb _
  · exact h

theorem read_writeLane {m : Memory} (h : m.wf = true) (k b : Nat) (data : Word) (wstrb : BitVec 4) (x : Nat) :
    (writeLane k data wstrb m b).read x =
      if x = k + b ∧ wstrb.getLsbD b = true then data.extractLsb' (8 * b) 8 else m.read x := by
  unfold writeLane
  split
  next hs => simp only [Memory.read_write m h, hs, and_true]
  next hs => rw [if_neg fun hx => hs hx.2]

/-- After the first n lanes the canonical form is kept and the strobed bytes among the n hold the data's. -/
theorem foldl_writeLane {m : Memory} (h : m.wf = true) {k n : Nat} (hn : k + n ≤ 8192) (data : Word) (wstrb : BitVec 4) :
    ((List.range n).foldl (writeLane k data wstrb) m).wf = true ∧
      ∀ x, ((List.range n).foldl (writeLane k data wstrb) m).read x =
        if within k n x ∧ wstrb.getLsbD (x - k) = true then data.extractLsb' (8 * (x - k)) 8 else m.read x := by
  induction n with
  | zero => exact ⟨h, fun x => (if_neg (by omega)).symm⟩
  | succ n ih =>
    obtain ⟨hwf, hread⟩ := ih (by omega)
    rw [List.range_succ, List.foldl_append, List.foldl_cons, List.foldl_nil]
    refine ⟨writeLane_wf hwf (by omega) data wstrb, fun x => ?_⟩
    rw [read_writeLane hwf, hread]
    by_cases hx : x = k + n
    · subst hx
      rw [Nat.add_sub_cancel_left, if_neg (c := within k n (k + n) ∧ _) (by omega)]
      exact if_congr (and_congr_left' (by simp [within])) rfl rfl
    · rw [if_neg fun h => hx h.1]
      exact if_congr (and_congr_left' (by simp only [within]; omega)) rfl rfl

/-- A byte read after a byte-RAM write (R220). -/
theorem read_writeLanes {m : Memory} (h : m.wf = true) {k : Nat} (hk : k + 4 ≤ 8192) (data : Word) (wstrb : BitVec 4)
    (x : Nat) : (writeLanes m k data wstrb).read x =
      if within k 4 x ∧ wstrb.getLsbD (x - k) = true then data.extractLsb' (8 * (x - k)) 8 else m.read x := by
  rw [writeLanes_eq_foldl]
  exact (foldl_writeLane h hk data wstrb).2 x

/-! ## The obligations -/

/-- Settles O50: the alignment is checked before the strobe and the region. -/
theorem misalignedAccessRefused : Obligations.MisalignedAccessRefused := by
  intro addr data wstrb s hmis
  have ha : isAligned addr = false := by simpa [isAligned] using hmis
  exact ⟨hostRead_misaligned ha s, hostWrite_misaligned ha data wstrb s⟩

/-- Settles O53: the window's word is cell (k, i) of the slot RAM. -/
theorem slotWindow : Obligations.SlotWindow := by
  intro k i data wstrb s hk hi
  have ha := isAligned_ofNat (n := 0x10000 + 1024 * k + 4 * i) (by omega) (by omega)
  have hr := regionOf_slotCell hk hi
  refine ⟨hostRead_slot_idle ha hr, hostRead_slot_busy ha hr, hostWrite_slot_refused ha hr, fun idle hlt => ?_⟩
  rw [hostWrite_slot_idle ha hr idle hlt]
  refine ⟨rfl, fun n m _ hm => ?_⟩
  rw [get_slot_setCoef s hk i _ n hm, apply_ite Fin.val, narrow_natCast, Nat.mod_eq_of_lt hlt]

/-- Settles O54, by the invariant of the lanes' fold; strobe 0000 is the case of no lane. -/
theorem byteWindow : Obligations.ByteWindow := by
  intro k data wstrb s hk h4 hw
  have ha := isAligned_ofNat (n := 0x20000 + k) (by omega) (by omega)
  have hr := regionOf_bramWord hk
  refine ⟨fun idle => ⟨hostRead_bram_idle ha hr idle, ?_⟩,
    fun busy => ⟨hostRead_bram_busy ha hr busy, hostWrite_bram_busy ha hr busy data⟩⟩
  rw [hostWrite_bram_idle ha hr idle]
  exact ⟨rfl, read_writeLanes hw (by omega) data wstrb⟩

/-- The words of the ROM by the formulas of R13 and R140. -/
theorem romWord_eq (k : Nat) : romWord k = BitVec.ofNat 32 (
    if k < 128 then (zetaPower k).val else if k < 256 then (gammaPower (k - 128)).val else reversed (k - 256)) := by
  simp only [romWord, zeta_eq_zetaPower, gamma_eq_gammaPower, bitrev7_eq_reversed, apply_ite (BitVec.ofNat 32)]

/-- Settles O55, by the formulas of the three tables. -/
theorem romWindow : Obligations.RomWindow := by
  intro k data wstrb s hk
  have ha := isAligned_ofNat (n := 0x30000 + 4 * k) (by omega) (by omega)
  have hr := regionOf_romWord hk
  exact ⟨by rw [hostRead_rom ha hr, romWord_eq], hostWrite_rom ha hr data⟩

end Sys2Proof.Proofs
end

section
/-! PROOF. O1-O6 (the encoding): a command's word is the concatenation of its fields, so that a word is the encoding of a command
exactly when each of its fields is the command's (cast_append_eq_iff); the must-be-zero masks of R310 are masks of fields; and a
command that breaks a static rule ends in PARAM whatever the state. -/

namespace Sys2Proof.Proofs

open Sys2Proof Sys2Proof.Machine Sys2Proof.Spec

/-! ## The fields of a word -/

theorem field_append_field (w : Word) (lo m n : Nat) :
    field w (lo + n) m ++ field w lo n = field w lo (m + n) :=
  BitVec.extractLsb'_append_extractLsb'_eq_extractLsb' rfl

/-- A field is a concatenation when its upper and lower parts are. -/
theorem field_eq_append_iff {w : Word} {lo m n : Nat} {x : BitVec m} {y : BitVec n} :
    field w lo (m + n) = x ++ y ↔ field w (lo + n) m = x ∧ field w lo n = y := by
  rw [← field_append_field]
  refine ⟨fun h => ⟨?_, ?_⟩, fun ⟨hx, hy⟩ => by rw [hx, hy]⟩
  · simpa only [BitVec.extractLsb'_append_eq_left] using congrArg (BitVec.extractLsb' n m) h
  · simpa only [BitVec.extractLsb'_append_eq_right] using congrArg (BitVec.extractLsb' 0 n) h

theorem cast_eq_iff_field_eq (w : Word) {n : Nat} {v : BitVec n} (h : n = 32) : v.cast h = w ↔ field w 0 n = v := by
  subst h
  rw [field, BitVec.extractLsb'_eq_self, eq_comm, BitVec.cast_eq]

/-- A word is the concatenation of `x` and `y` exactly when they are its fields. The cast is there because the width of a word of
`encode` is a sum of widths, 6+6+6+6+8 for one, that only evaluates to 32. -/
theorem cast_append_eq_iff {w : Word} {m n : Nat} {x : BitVec m} {y : BitVec n} (h : m + n = 32) :
    (x ++ y).cast h = w ↔ field w (0 + n) m = x ∧ field w 0 n = y := by
  rw [cast_eq_iff_field_eq, field_eq_append_iff]

theorem toNat_field (w : Word) (lo len : Nat) : (field w lo len).toNat = w.toNat / 2 ^ lo % 2 ^ len := by
  rw [field, BitVec.extractLsb'_toNat, Nat.shiftRight_eq_div_pow]

/-! ## The two round trips -/

/-- Settles O1: a word equal to `encode i` has the fields of `i`; the lowest selects the branch of the decoder that reads the
others. -/
theorem decodeInvertsEncode : Obligations.DecodeInvertsEncode := by
  intro i
  generalize hw : encode i = w
  cases i
  all_goals
    have hfields := (cast_append_eq_iff rfl).1 hw
    simp only [↓field_eq_append_iff, Nat.reduceAdd] at hfields
    simp only [decode, hfields]

/-- Settles O2: in each branch of the decoder the opcode and the fields read are all the word's bits. -/
theorem encodeInvertsDecode : Obligations.EncodeInvertsDecode := by
  intro w i h
  unfold decode at h
  split at h <;> cases h
  all_goals
    have hop : field w 0 8 = _ := ‹_›
    exact (cast_append_eq_iff rfl).2 ⟨by simp only [↓field_eq_append_iff, Nat.reduceAdd, and_self], hop⟩

/-! ## The opcode map -/

/-- The row a word selects is one of the map's and has the word's opcode. -/
theorem mem_opcodeTable_of_opcodeRow? {w : Word} {r : OpcodeRow} (h : opcodeRow? w = some r) :
    r ∈ opcodeTable ∧ r.opcode = field w 0 8 :=
  ⟨List.mem_of_find?_eq_some h, by simpa using List.find?_some (p := fun r : OpcodeRow => r.opcode == field w 0 8) h⟩

/-- A word that decodes selects a row. -/
theorem opcodeRow?_isSome_of_decode {w : Word} {i : Instr} (h : decode w = .ok i) : (opcodeRow? w).isSome = true := by
  unfold decode at h
  split at h <;> cases h
  all_goals
    have hop : field w 0 8 = _ := ‹_›
    rw [opcodeRow?, hop]
    rfl

/-- Settles O4. -/
theorem wordsDecodeAsSpecified : Obligations.WordsDecodeAsSpecified := by
  unfold Obligations.WordsDecodeAsSpecified
  and_intros <;> rfl

/-! ## Must-be-zero masks and reserved codes -/

/-- The mask of the `len` bits from `lo` up. -/
def fieldMask (lo len : Nat) : Word := (BitVec.allOnes len).setWidth 32 <<< lo

theorem getLsbD_fieldMask {lo len k : Nat} (hk : k < 32) :
    (fieldMask lo len).getLsbD k = (decide (lo ≤ k) && decide (k < lo + len)) := by
  simp only [fieldMask, BitVec.getLsbD_shiftLeft, BitVec.getLsbD_setWidth, BitVec.getLsbD_allOnes]
  grind

/-- No bit under a field's mask is set exactly when the field is zero. -/
theorem and_fieldMask_eq_zero_iff (w : Word) {lo len : Nat} (h : lo + len ≤ 32) :
    w &&& fieldMask lo len = 0 ↔ field w lo len = 0 := by
  constructor <;> intro hw <;> refine BitVec.eq_of_getLsbD_eq fun k hk => ?_
  · have hbit := congrArg (BitVec.getLsbD · (lo + k)) hw
    simpa [field, hk, getLsbD_fieldMask (show lo + k < 32 by omega)] using hbit
  · have hbit := congrArg (BitVec.getLsbD · (k - lo)) hw
    rw [BitVec.getLsbD_and, getLsbD_fieldMask hk]
    by_cases hin : lo ≤ k ∧ k < lo + len
    · simpa [field, hin, show k - lo < len by omega] using hbit
    · simp; omega

/-- The fields under each mask of R310. -/
theorem and_mustBeZero_eq_zero_iff (w : Word) :
    (w &&& 0xFFFFFF00#32 = 0#32 ↔ field w 8 24 = 0#24) ∧
    (w &&& 0xFFFFC000#32 = 0#32 ↔ field w 14 18 = 0#18) ∧
    (w &&& 0xFC000000#32 = 0#32 ↔ field w 26 6 = 0#6) ∧
    (w &&& 0x00078000#32 = 0#32 ↔ field w 15 4 = 0#4) ∧
    (w &&& 0x00040000#32 = 0#32 ↔ field w 18 1 = 0#1) ∧
    (w &&& 0x0007C000#32 = 0#32 ↔ field w 14 5 = 0#5) ∧
    (w &&& 0x00060000#32 = 0#32 ↔ field w 17 2 = 0#2) ∧
    (w &&& 0xE3F00000#32 = 0#32 ↔ field w 29 3 = 0#3 ∧ field w 20 6 = 0#6) ∧
    (w &&& 0xE3FFFF00#32 = 0#32 ↔ field w 29 3 = 0#3 ∧ field w 8 18 = 0#18) := by
  have one {lo len : Nat} {m : Word} (h : lo + len ≤ 32) (hm : m = fieldMask lo len) :
      w &&& m = 0 ↔ field w lo len = 0 := hm ▸ and_fieldMask_eq_zero_iff w h
  have two {m m₁ m₂ : Word} {P Q : Prop} (h₁ : w &&& m₁ = 0 ↔ P) (h₂ : w &&& m₂ = 0 ↔ Q) (hm : m = m₁ ||| m₂) :
      w &&& m = 0 ↔ P ∧ Q := by
    rw [hm, BitVec.and_or_distrib_left, ← h₁, ← h₂]
    exact BitVec.or_eq_zero_iff
  refine ⟨one ?_ ?_, one ?_ ?_, one ?_ ?_, one ?_ ?_, one ?_ ?_, one ?_ ?_, one ?_ ?_, two (one ?_ rfl) (one ?_ rfl) ?_,
    two (one ?_ rfl) (one ?_ rfl) ?_⟩ <;> decide

/-- The reserved codes by the fields that the decoder reads (R307, R309). -/
theorem reservedCode_iff (w : Word) :
    reservedCode w ↔ (field w 0 8 ∈ [0x40#8, 0x41#8] ∧ 5 < (field w 14 3).toNat) ∨
      (field w 0 8 ∈ [0x42#8, 0x43#8] ∧ 4 < (field w 26 3).toNat) ∨
      (field w 0 8 = 0x50#8 ∧ 3 < (field w 26 3).toNat) := by
  have hop : w.toNat % 256 = (field w 0 8).toNat := by rw [toNat_field, pow_zero, Nat.div_one]; rfl
  simp only [reservedCode, hop, toNat_field w 14, toNat_field w 26, List.mem_cons, List.not_mem_nil, or_false,
    BitVec.toNat_eq, BitVec.toNat_ofNat]
  rfl

/-- Settles O3, row by row: the fields under the row's mask are the must-be-zero fields of the command. -/
theorem illFormedExactlyUnderMask : Obligations.IllFormedExactlyUnderMask := by
  intro w r hr
  obtain ⟨hmem, hop⟩ := mem_opcodeTable_of_opcodeRow? hr
  simp only [opcodeTable, List.cons_append, List.nil_append] at hmem
  fin_cases hmem
  all_goals
    simp only [decode, ← hop]
    refine ⟨_, rfl, ?_⟩
    simp [Instr.wf, and_mustBeZero_eq_zero_iff, reservedCode_iff, ← hop, imp_iff_not_or]

/-! ## The commands that run into a static error -/

/-- Settles O5: a word that decodes selects a row, so that one with no row is refused by the decoder. -/
theorem unassignedOpcodeIsIllegal : Obligations.UnassignedOpcodeIsIllegal := by
  refine ⟨by decide +kernel, fun s hb h0 hrow => ?_⟩
  rw [step_core hb h0, runCommand]
  split
  next i hi => exact absurd (opcodeRow?_isSome_of_decode hi) (by simp [hrow])
  next => rfl

theorem compressWidthOf_of_reserved {fn : BitVec 3} (h : 4 < fn.toNat) : compressWidthOf fn = none := by
  revert fn; decide

/-- An ill-formed command ends in PARAM, before any other check (R312, R703). -/
theorem exec_of_illFormed {i : Instr} (h : i.wf = false) (s : State) : exec i s = .next (failed 2 s) := by
  cases i with
  | enc addr zero dcode rs | dec addr zero dcode rs =>
    have hbad : zero ≠ 0 ∨ 5 < dcode.toNat := by simpa [Instr.wf, imp_iff_not_or] using h
    refine congrArg (finish s) (?_ : _ = .error .param s)
    rcases hbad with hzero | hcode
    · split
      · rfl
      · exact if_pos hzero
    · rw [widthOf_of_reserved hcode]
  | cmpr zero fn rs2 rs1 rd | dcmp zero fn rs2 rs1 rd =>
    have hbad : (zero ≠ 0 ∨ rs2 ≠ 0) ∨ 4 < fn.toNat := by simpa [Instr.wf, imp_iff_not_or] using h
    refine congrArg (finish s) (?_ : _ = .error .param s)
    rcases hbad with hzero | hcode
    · exact if_pos hzero
    · rw [compressWidthOf_of_reserved hcode, ite_self]
  | hash zero fn regs =>
    have hbad : (zero ≠ 0 ∨ regs ≠ 0) ∨ 3 < fn.toNat := by simpa [Instr.wf, imp_iff_not_or] using h
    refine congrArg (finish s) (?_ : _ = .error .param s)
    rcases hbad with hzero | hcode
    · exact if_pos hzero
    · rw [if_pos (c := fn.toNat > 3) hcode, ite_self]
  | _ => exact congrArg (finish s) (if_pos (by simpa [Instr.wf] using h))

/-- Settles O6. -/
theorem illFormedWordIsParam : Obligations.IllFormedWordIsParam := by
  intro s r hb h0 hrow hbad
  obtain ⟨i, hi, hwf⟩ := illFormedExactlyUnderMask s.cmd r hrow
  rw [step_core hb h0, runCommand, hi]
  exact exec_of_illFormed (hwf.2 hbad) s

end Sys2Proof.Proofs
end

section
/-! PROOF. O13-O16 (MADD, MSUB, MMUL, MRED): the three commands on scalars differ only in their operation on two cells, and the
datapath computes mod q on every pair of numbers stored in cells (R400-R403). -/

namespace Sys2Proof.Proofs

open Sys2Proof Sys2Proof.Machine Sys2Proof.Spec

/-! ## The operations on numbers stored in cells -/

theorem val_modAdd_narrow (a b : Nat) : (modAdd (narrow a) (narrow b)).val = (a + b) % 3329 := by
  rw [modAdd_eq_add, Fin.val_add, narrow_natCast, narrow_natCast, ← Nat.add_mod]

theorem val_modSub_narrow (a b : Nat) : ((modSub (narrow a) (narrow b)).val : Int) = ((a : Int) - b) % 3329 := by
  rw [modSub_eq_sub, Fin.val_sub, narrow_natCast, narrow_natCast]
  omega

theorem val_modMul_narrow (a b : Nat) : (modMul (narrow a) (narrow b)).val = a * b % 3329 := by
  rw [modMul_eq_mul, Fin.val_mul, narrow_natCast, narrow_natCast, ← Nat.mul_mod]

/-! ## The commands on OPA and OPB -/

/-- The common form of MADD, MSUB and MMUL, for an operation `f` on two cells (R405-R407). -/
def scalarCommand (f : Coef → Coef → Coef) (zero : BitVec 24) (s : State) : Host.Outcome State Fault Refusal :=
  finish s <|
    if zero ≠ 0 then .error .param s
    else if scalarsInRange s = false then .error .operand s
    else .done (s.setRes (f (narrow s.opa.toNat) (narrow s.opb.toNat)).val)

theorem exec_madd (zero : BitVec 24) (s : State) : exec (.madd zero) s = scalarCommand modAdd zero s := rfl
theorem exec_msub (zero : BitVec 24) (s : State) : exec (.msub zero) s = scalarCommand modSub zero s := rfl
theorem exec_mmul (zero : BitVec 24) (s : State) : exec (.mmul zero) s = scalarCommand modMul zero s := rfl

/-- A command on scalars reports PARAM, then OPERAND, and otherwise writes the result of its operation to RES alone. -/
theorem scalarCommand_eq (f : Coef → Coef → Coef) (zero : BitVec 24) (s : State) :
    scalarCommand f zero s = .next (
      if zero ≠ 0 then failed 2 s
      else if s.opa.toNat < 3329 ∧ s.opb.toNat < 3329 then
        succeeded { s with res := BitVec.ofNat 16 (f (narrow s.opa.toNat) (narrow s.opb.toNat)).val }
      else failed 6 s) := by
  refine congrArg Host.Outcome.next ?_
  by_cases hz : zero ≠ 0
  · rw [if_pos hz, if_pos hz]; rfl
  rw [if_neg hz, if_neg hz]
  simp only [← scalarsInRange_iff]
  cases scalarsInRange s <;> rfl

/-- Settles O13. -/
theorem maddAddsModQ : Obligations.MaddAddsModQ := by
  intro zero s
  rw [exec_madd, scalarCommand_eq, val_modAdd_narrow]

/-- Settles O14. -/
theorem msubSubtractsModQ : Obligations.MsubSubtractsModQ := by
  intro zero s
  rw [exec_msub, scalarCommand_eq, ← val_modSub_narrow, BitVec.ofInt_natCast]

/-- Settles O15. -/
theorem mmulMultipliesModQ : Obligations.MmulMultipliesModQ := by
  intro zero s
  rw [exec_mmul, scalarCommand_eq, val_modMul_narrow]

/-! ## MRED -/

/-- Barrett reduction of an operand in the domain of R408, as RES holds it. -/
theorem ofNat_barrett {x : Int} (h0 : -67108864 ≤ x) (h1 : x ≤ 67108864) :
    BitVec.ofNat 16 (barrett x).toNat = BitVec.ofInt 16 (x % 3329) := by
  rw [barrett_eq_emod h0 h1, ← BitVec.ofInt_natCast, Int.toNat_of_nonneg (Int.emod_nonneg x (by decide))]

/-- Settles O16. -/
theorem mredReducesModQ : Obligations.MredReducesModQ := by
  intro zero s
  refine congrArg Host.Outcome.next ?_
  rw [show (2 : Int) ^ 26 = 67108864 by norm_num]
  by_cases hz : zero ≠ 0
  · rw [if_pos hz, if_pos hz]; rfl
  rw [if_neg hz, if_neg hz]
  by_cases hx : s.opx.toInt < -67108864 ∨ 67108864 < s.opx.toInt
  · rw [if_pos hx, if_pos hx]; rfl
  · rw [if_neg hx, if_neg hx, ← ofNat_barrett (by omega) (by omega)]; rfl

end Sys2Proof.Proofs
end

section
/-! PROOF. O19 (VNTT, VINTT): the end of a command that writes one Vec, and the two transforms of a Vec, which differ only in
the function applied to each of its slots. -/

namespace Sys2Proof.Proofs

open Sys2Proof Sys2Proof.Machine Sys2Proof.Spec

/-- A slot read after a Vec write at a legal base, for a Vec whose elements are the values of `f` at the four slots. -/
theorem slot_setVec_of_eq (s : State) {b : Nat} (hb : b ≤ 60) {v : Fin 4 → Poly} {f : Nat → Poly}
    (hv : ∀ i : Fin 4, v i = f (b + i)) (n : Nat) :
    (s.setVec b v).slot n = if within b 4 n then f n else s.slot n := by
  rw [State.slot_setVec s hb]
  by_cases hn : within b 4 n
  · obtain ⟨i, rfl⟩ := Nat.exists_eq_add_of_le hn.1
    have hi : i < 4 := Nat.lt_of_add_lt_add_left hn.2
    rw [if_pos hn, ← hv ⟨i, hi⟩]
    interval_cases i <;> simp
  · rw [if_neg hn, if_neg (by omega), if_neg (by omega), if_neg (by omega), if_neg (by omega)]

/-- A Vec write changes the slot RAM alone. -/
theorem setVec_eq_setSlots (s : State) (b : Nat) (v : Fin 4 → Poly) : s.setVec b v = s.setSlots (s.setVec b v).slots := by
  simp only [State.setVec, State.setSlot, State.setSlots]

/-- A command that ends by writing one Vec leaves its four slots with the written Polys and everything else as it was. -/
theorem slotsBecome_setVec (s : State) {b : Nat} (hb : b ≤ 60) {v : Fin 4 → Poly} {f : Nat → Poly}
    (hv : ∀ i : Fin 4, v i = f (b + i)) :
    slotsBecome s (fun n => if within b 4 n then f n else s.slot n) (s.complete (.done (s.setVec b v))) :=
  ⟨congrArg succeeded (setVec_eq_setSlots s b v), fun n _ => by rw [State.slot_complete_done, slot_setVec_of_eq s hb hv]⟩

/-- The common form of VNTT and VINTT, for the transform `f` of one Poly (R422, R423). -/
def vecTransform (f : Poly → Poly) (zero : BitVec 18) (rd : Slot) (s : State) : Host.Outcome State Fault Refusal :=
  finish s <|
    if zero ≠ 0 then .error .param s
    else if isVecBase rd = false then .error .slot s
    else .done (s.setVec rd.toNat fun i => f (s.vec rd.toNat i))

theorem exec_vntt (zero : BitVec 18) (rd : Slot) (s : State) :
    exec (.vntt zero rd) s = vecTransform nttLoops zero rd s := by
  rw [← funext ntt_eq_nttLoops]; rfl

theorem exec_vintt (zero : BitVec 18) (rd : Slot) (s : State) :
    exec (.vintt zero rd) s = vecTransform inttLoops zero rd s := by
  rw [← funext intt_eq_inttLoops]; rfl

/-- A transform of a Vec reports PARAM, then SLOT, and otherwise transforms the four slots alone. -/
theorem vecTransform_transforms_slots (f : Poly → Poly) (zero : BitVec 18) (rd : Slot) (s : State) :
    ∃ t, vecTransform f zero rd s = .next t ∧
      if zero ≠ 0 then t = failed 2 s
      else if 60 < rd.toNat then t = failed 3 s
      else slotsBecome s (fun n => if within rd.toNat 4 n then f (s.slot n) else s.slot n) t := by
  refine ⟨_, rfl, ?_⟩
  by_cases hz : zero ≠ 0
  · rw [if_pos hz, if_pos hz]; rfl
  rw [if_neg hz, if_neg hz]
  by_cases hrd : 60 < rd.toNat
  · have hbase : isVecBase rd = false := by simpa [isVecBase] using hrd
    rw [if_pos hrd, if_pos hbase]; rfl
  · have hle : rd.toNat ≤ 60 := Nat.le_of_not_lt hrd
    rw [if_neg hrd, (isVecBase_iff rd).2 hle]
    exact slotsBecome_setVec s hle (f := fun n => f (s.slot n)) fun _ => rfl

/-- Settles O19: the transforms of the machine are the loops of R15 and R16. -/
theorem vnttVinttTransformFourSlots : Obligations.VnttVinttTransformFourSlots := by
  intro zero rd s
  rw [exec_vntt, exec_vintt]
  exact ⟨vecTransform_transforms_slots nttLoops zero rd s, vecTransform_transforms_slots inttLoops zero rd s⟩

end Sys2Proof.Proofs
end

section
/-! PROOF. O21 (PADD, PSUB), O22 (VADD), O23 (DOT) and O24 (MATVEC, MATVECT): the machine's modular sums are sums in ℤ_q, its
interval tests are the slot ranges of R457, and the four commands on Vecs share one order of refusals. -/

namespace Sys2Proof.Proofs

open Sys2Proof Sys2Proof.Machine Sys2Proof.Spec
open scoped Fin.CommRing

/-! ## Sums of Polys -/

theorem polyAdd_eq_plus (a b : Poly) : polyAdd a b = plus a b := Poly.ofFn_congr fun _ _ => modAdd_eq_add _ _

theorem polySub_eq_minus (a b : Poly) : polySub a b = minus a b := Poly.ofFn_congr fun _ _ => modSub_eq_sub _ _

theorem zero_plus (a : Poly) : plus Poly.zero a = a :=
  Poly.ext_get fun i hi => by rw [plus, Poly.get_ofFn _ hi, Poly.get_zero hi, zero_add]

/-- Accumulating four Polys from the zero polynomial gives their sum (R454). -/
theorem polySum_eq_sum4 (f : Fin 4 → Poly) : polySum f = sum4 f := by
  simp only [polySum, sum4, polyAdd_eq_plus, zero_plus]

/-- Four accumulated pair products, in ℤ_q (R454-R456). -/
theorem polySum_baseMul (v w : Fin 4 → Poly) :
    (polySum fun j => baseMul (v j) (w j)) = sum4 fun j => baseMulZq (v j) (w j) := by
  simp only [polySum_eq_sum4, baseMul_eq_baseMulZq]

theorem dotProduct_eq_sum4 (v w : Fin 4 → Poly) : Machine.dotProduct v w = sum4 fun j => baseMulZq (v j) (w j) :=
  polySum_baseMul v w

/-! ## The refusals -/

/-- The machine's test for a shared slot is that the two closed ranges of R457 meet. -/
theorem slotsMeet_iff_meets (a b : Nat) {n m : Nat} (hn : 0 < n) (hm : 0 < m) :
    slotsMeet a n b m = true ↔ meets a n b m := by
  rw [slotsMeet_iff]
  constructor
  · rintro ⟨hab, hba⟩
    refine ⟨max a b, Finset.mem_inter.2 ⟨Finset.mem_Icc.2 ⟨?_, ?_⟩, Finset.mem_Icc.2 ⟨?_, ?_⟩⟩⟩ <;> omega
  · rintro ⟨k, hk⟩
    obtain ⟨hka, hkb⟩ := Finset.mem_inter.1 hk
    rw [Finset.mem_Icc] at hka hkb
    omega

/-- A one-slot range meets a range exactly when its slot lies in it. -/
theorem slotsMeet_one_iff_within (a b m : Nat) : slotsMeet a 1 b m = true ↔ within b m a := by
  rw [slotsMeet_iff, Nat.lt_succ_iff]
  exact and_comm

theorem isVecBase_eq_false_iff (b : Slot) : isVecBase b = false ↔ 60 < b.toNat := by simp [isVecBase]

theorem isMatBase_eq_false_iff (b : Slot) : isMatBase b = false ↔ 48 < b.toNat := by simp [isMatBase]

theorem overlapVadd_iff (rd rs1 rs2 : Slot) :
    overlapVadd rd rs1 rs2 = true ↔
      (meets rd.toNat 4 rs1.toNat 4 ∧ rd ≠ rs1) ∨ (meets rd.toNat 4 rs2.toNat 4 ∧ rd ≠ rs2) := by
  simp only [overlapVadd, Bool.or_eq_true, Bool.and_eq_true, bne_iff_ne,
    slotsMeet_iff_meets _ _ (show 0 < 4 by decide) (show 0 < 4 by decide)]

theorem overlapDot_iff (rd rs1 rs2 : Slot) :
    overlapDot rd rs1 rs2 = true ↔ within rs1.toNat 4 rd.toNat ∨ within rs2.toNat 4 rd.toNat := by
  rw [overlapDot, Bool.or_eq_true, slotsMeet_one_iff_within, slotsMeet_one_iff_within]

theorem overlapMat_iff (rd rs1 rs2 : Slot) :
    overlapMat rd rs1 rs2 = true ↔ meets rd.toNat 4 rs1.toNat 16 ∨ meets rd.toNat 4 rs2.toNat 4 := by
  rw [overlapMat, Bool.or_eq_true, slotsMeet_iff_meets _ _ (by decide) (by decide),
    slotsMeet_iff_meets _ _ (by decide) (by decide)]

/-! ## The common forms -/

/-- The common form of PADD and PSUB: PARAM, else slot rd becomes `p` (R451, R452). -/
def polyCommand (zero : BitVec 6) (rd : Slot) (p : Poly) (s : State) : Host.Outcome State Fault Refusal :=
  finish s <|
    if zero ≠ 0 then .error .param s
    else .done (s.setSlot rd.toNat p)

theorem exec_padd (zero : BitVec 6) (rs2 rs1 rd : Slot) (s : State) :
    exec (.padd zero rs2 rs1 rd) s = polyCommand zero rd (plus (s.slot rs1.toNat) (s.slot rs2.toNat)) s := by
  rw [← polyAdd_eq_plus]; rfl

theorem exec_psub (zero : BitVec 6) (rs2 rs1 rd : Slot) (s : State) :
    exec (.psub zero rs2 rs1 rd) s = polyCommand zero rd (minus (s.slot rs1.toNat) (s.slot rs2.toNat)) s := by
  rw [← polySub_eq_minus]; rfl

theorem polyCommand_writes_slot (zero : BitVec 6) (rd : Slot) (p : Poly) (s : State) :
    ∃ t, polyCommand zero rd p s = .next t ∧
      if zero ≠ 0 then t = failed 2 s
      else slotsBecome s (fun n => if n = rd.toNat then p else s.slot n) t := by
  refine ⟨_, rfl, ?_⟩
  by_cases hz : zero ≠ 0
  · rw [if_pos hz, if_pos hz]; rfl
  · rw [if_neg hz, if_neg hz]
    exact slotsBecome_setSlot s rd p

/-- The common form of VADD, DOT, MATVEC and MATVECT: PARAM, else SLOT unless `legal`, else OVERLAP when `overlap`, else the
writes that lead to `t` (R453-R457). -/
def vecCommand (zero : BitVec 6) (legal overlap : Bool) (s t : State) : Host.Outcome State Fault Refusal :=
  finish s <|
    if zero ≠ 0 then .error .param s
    else if legal = false then .error .slot s
    else if overlap then .error .overlap s
    else .done t

theorem exec_vadd (zero : BitVec 6) (rs2 rs1 rd : Slot) (s : State) :
    exec (.vadd zero rs2 rs1 rd) s =
      vecCommand zero (isVecBase rd && isVecBase rs1 && isVecBase rs2) (overlapVadd rd rs1 rs2) s
        (s.setVec rd.toNat fun k => polyAdd (s.vec rs1.toNat k) (s.vec rs2.toNat k)) := rfl

theorem exec_dot (zero : BitVec 6) (rs2 rs1 rd : Slot) (s : State) :
    exec (.dot zero rs2 rs1 rd) s =
      vecCommand zero (isVecBase rs1 && isVecBase rs2) (overlapDot rd rs1 rs2) s
        (s.setSlot rd.toNat (Machine.dotProduct (s.vec rs1.toNat) (s.vec rs2.toNat))) := rfl

theorem exec_matvec (zero : BitVec 6) (rs2 rs1 rd : Slot) (s : State) :
    exec (.matvec zero rs2 rs1 rd) s =
      vecCommand zero (isVecBase rd && isMatBase rs1 && isVecBase rs2) (overlapMat rd rs1 rs2) s
        (s.setVec rd.toNat (matVec (s.mat rs1.toNat) (s.vec rs2.toNat))) := rfl

theorem exec_matvect (zero : BitVec 6) (rs2 rs1 rd : Slot) (s : State) :
    exec (.matvect zero rs2 rs1 rd) s =
      vecCommand zero (isVecBase rd && isMatBase rs1 && isVecBase rs2) (overlapMat rd rs1 rs2) s
        (s.setVec rd.toNat (matVecT (s.mat rs1.toNat) (s.vec rs2.toNat))) := rfl

/-- The refusals in order, for the conditions `P` and `Q` under which a statement expects SLOT and OVERLAP. -/
theorem vecCommand_refuses_in_order (zero : BitVec 6) {legal overlap : Bool} {P Q : Prop} [Decidable P] [Decidable Q]
    {s t : State} {f : Nat → Poly} (hslot : legal = false ↔ P) (hoverlap : overlap = true ↔ Q)
    (hdone : ¬P → slotsBecome s f (s.complete (.done t))) :
    ∃ t', vecCommand zero legal overlap s t = .next t' ∧
      if zero ≠ 0 then t' = failed 2 s
      else if P then t' = failed 3 s
      else if Q then t' = failed 5 s
      else slotsBecome s f t' := by
  refine ⟨_, rfl, ?_⟩
  by_cases hz : zero ≠ 0
  · rw [if_pos hz, if_pos hz]; rfl
  rw [if_neg hz, if_neg hz]
  by_cases hP : P
  · rw [if_pos hP, if_pos (hslot.2 hP)]; rfl
  rw [if_neg hP, if_neg (mt hslot.1 hP)]
  by_cases hQ : Q
  · rw [if_pos hQ, if_pos (hoverlap.2 hQ)]; rfl
  rw [if_neg hQ, if_neg (mt hoverlap.1 hQ)]
  exact hdone hP

/-- MATVEC and MATVECT differ only in the Vec they write: `v`, whose element i is the value of `f` at slot rd + i. -/
theorem matCommand_writes_vec (zero : BitVec 6) (rs2 rs1 rd : Slot) (s : State) {v : Fin 4 → Poly} {f : Nat → Poly}
    (hv : ∀ i : Fin 4, v i = f (rd.toNat + i)) :
    ∃ t, vecCommand zero (isVecBase rd && isMatBase rs1 && isVecBase rs2) (overlapMat rd rs1 rs2) s
        (s.setVec rd.toNat v) = .next t ∧
      if zero ≠ 0 then t = failed 2 s
      else if 60 < rd.toNat ∨ 48 < rs1.toNat ∨ 60 < rs2.toNat then t = failed 3 s
      else if meets rd.toNat 4 rs1.toNat 16 ∨ meets rd.toNat 4 rs2.toNat 4 then t = failed 5 s
      else slotsBecome s (fun n => if within rd.toNat 4 n then f n else s.slot n) t := by
  refine vecCommand_refuses_in_order zero ?_ (overlapMat_iff rd rs1 rs2) fun hbase => slotsBecome_setVec s (by omega) hv
  simp only [Bool.and_eq_false_iff, isVecBase_eq_false_iff, isMatBase_eq_false_iff, or_assoc]

/-! ## The statements -/

/-- Settles O21. -/
theorem paddPsubPerCoefficient : Obligations.PaddPsubPerCoefficient := by
  intro zero rs2 rs1 rd s
  rw [exec_padd, exec_psub]
  exact ⟨polyCommand_writes_slot zero rd _ s, polyCommand_writes_slot zero rd _ s⟩

/-- Settles O22: the destination's element i is the sum of the sources' elements i. -/
theorem vaddAddsVectors : Obligations.VaddAddsVectors := by
  intro zero rs2 rs1 rd s
  rw [exec_vadd]
  refine vecCommand_refuses_in_order zero ?_ (overlapVadd_iff rd rs1 rs2) fun hbase =>
    slotsBecome_setVec s (f := fun n => plus (s.slot (rs1.toNat + (n - rd.toNat))) (s.slot (rs2.toNat + (n - rd.toNat))))
      (by omega) fun i => ?_
  · simp only [Bool.and_eq_false_iff, isVecBase_eq_false_iff, or_assoc]
  · simp only [polyAdd_eq_plus, State.vec, Nat.add_sub_cancel_left]

/-- Settles O23. -/
theorem dotSumsFourProducts : Obligations.DotSumsFourProducts := by
  intro zero rs2 rs1 rd s
  rw [exec_dot, dotProduct_eq_sum4]
  refine vecCommand_refuses_in_order zero ?_ (overlapDot_iff rd rs1 rs2) fun _ => slotsBecome_setSlot s rd _
  simp only [Bool.and_eq_false_iff, isVecBase_eq_false_iff]

/-- Settles O24: both commands sum four pair products, over row i of the Mat for MATVEC and over column i for MATVECT. -/
theorem matvecMatvectMultiply : Obligations.MatvecMatvectMultiply := by
  intro zero rs2 rs1 rd s
  rw [exec_matvec, exec_matvect]
  constructor
  · refine matCommand_writes_vec zero rs2 rs1 rd s (f := fun n => sum4 fun j =>
      baseMulZq (s.slot (rs1.toNat + 4 * (n - rd.toNat) + j.val)) (s.slot (rs2.toNat + j.val))) fun i => ?_
    simp only [matVec, polySum_baseMul, State.mat, State.vec, Nat.add_sub_cancel_left]
  · refine matCommand_writes_vec zero rs2 rs1 rd s (f := fun n => sum4 fun j =>
      baseMulZq (s.slot (rs1.toNat + 4 * j.val + (n - rd.toNat))) (s.slot (rs2.toNat + j.val))) fun i => ?_
    simp only [matVecT, polySum_baseMul, State.mat, State.vec, Nat.add_sub_cancel_left]

end Sys2Proof.Proofs
end

section
/-! PROOF. O33 (HASH): the end of a command that writes one byte string, and the bytes of the string HASH writes, which is
computed from the byte RAM before any of them is written. -/

namespace Sys2Proof.Proofs

open Sys2Proof Sys2Proof.Machine Sys2Proof.Spec

/-- A command that ends by writing one byte string leaves the string at its address and everything else as it was. -/
theorem bytesBecome_writeBytes {s : State} (hw : s.bram.wf = true) {a : Nat} {B : List Byte} (ha : a + B.length ≤ 8192) :
    bytesBecome s (fun x => if within a B.length x then B.getD (x - a) 0 else s.bram.read x)
      (s.complete (.done (s.setBram (s.bram.writeBytes a B)))) :=
  ⟨rfl, Memory.read_writeBytes hw ha⟩

/-- Byte k of a string listed from a stream is byte k of the stream. -/
theorem getD_map_range (f : Nat → Byte) {n k : Nat} (hk : k < n) : ((List.range n).map f).getD k 0 = f k := by
  simp [List.getD, hk]

/-- Byte k of HASH's output is byte k of the function that fn selects (R309). -/
theorem getD_hashOutput (fn : BitVec 3) (x : List Byte) (s : State) {k : Nat} (hk : k < hashOutLen fn s) :
    (hashOutput fn x (hashOutLen fn s)).getD k 0 =
      if fn = 0 then (hashH32 x).getD k 0 else if fn = 1 then (hashG64 x).getD k 0
      else if fn = 2 then Config.shake256Stream x k else Config.shake128 x k := by
  unfold hashOutput
  by_cases h0 : fn = 0
  · rw [if_pos h0, if_pos h0]; rfl
  rw [if_neg h0, if_neg h0]
  by_cases h1 : fn = 1
  · rw [if_pos h1, if_pos h1]; rfl
  rw [if_neg h1, if_neg h1]
  by_cases h2 : fn = 2
  · rw [if_pos h2, if_pos h2]; exact getD_map_range _ hk
  · rw [if_neg h2, if_neg h2]; exact getD_map_range _ hk

/-- Settles O33: both refusals of a form are PARAM, both of a range are BYTE, and the string written is as long as its range. -/
theorem hashWritesDigest : Obligations.HashWritesDigest := by
  intro zero fn regs s hw
  refine ⟨_, rfl, ?_⟩
  dsimp only
  rw [← hashOutLen]
  simp only [inByteRam_eq_false_iff]
  by_cases hform : zero ≠ 0 ∨ regs ≠ 0
  · rw [if_pos hform, if_pos (or_assoc.1 (.inl hform))]; rfl
  by_cases hfn : 3 < fn.toNat
  · rw [if_neg hform, if_pos hfn, if_pos (.inr (.inr hfn))]; rfl
  rw [if_neg hform, if_neg hfn, if_neg (by tauto)]
  by_cases hin : 8192 < s.hsrc.toNat + s.hlen.toNat
  · rw [if_pos hin, if_pos (.inl hin)]; rfl
  by_cases hout : 8192 < s.hdst.toNat + hashOutLen fn s
  · rw [if_neg hin, if_pos hout, if_pos (.inr hout)]; rfl
  rw [if_neg hin, if_neg hout, if_neg (not_or.2 ⟨hin, hout⟩)]
  have hlen := length_hashOutput fn (s.bram.readBytes s.hsrc.toNat s.hlen.toNat) s
  obtain ⟨hframe, hbytes⟩ := bytesBecome_writeBytes hw (hlen.symm ▸ Nat.le_of_not_lt hout)
  refine ⟨hframe, fun a => (hbytes a).trans ?_⟩
  rw [hlen]
  refine if_ctx_congr Iff.rfl (fun ha => getD_hashOutput fn _ s ?_) fun _ => rfl
  omega

end Sys2Proof.Proofs
end

section
/-! PROOF. O26 (CBDPRF): the sample of CBD taken of the PRF's output, and the nonce used before it is counted. -/

namespace Sys2Proof.Proofs

open Sys2Proof Sys2Proof.Machine Sys2Proof.Spec

/-- The machine's PRF reads SHAKE256 of the seed and the nonce's byte. -/
theorem prf_eq_prfBytes (seed : List Byte) (n eta : Nat) : prf seed n eta = prfBytes seed n eta := rfl

/-- Counting a byte up wraps at 256 (R123). -/
theorem byte_add_one_eq_ofNat (b : BitVec 8) : b + 1 = BitVec.ofNat 8 ((b.toNat + 1) % 256) := by
  bv_omega

/-- Settles O26. -/
theorem cbdprfSamplesAndCountsNonce : Obligations.CbdprfSamplesAndCountsNonce := by
  intro addr zero eta rd s
  refine ⟨_, rfl, ?_⟩
  simp only [inByteRam_eq_false_iff, etaOf_eq, prf_eq_prfBytes]
  by_cases hz : zero ≠ 0
  · rw [if_pos hz, if_pos hz]; rfl
  · rw [if_neg hz, if_neg hz]
    by_cases hr : 8192 < addr.toNat + 32
    · rw [if_pos hr, if_pos hr]; rfl
    · rw [if_neg hr, if_neg hr, samplePolyCBD_eq_cbdPoly (by have := eta.isLt; omega), ← byte_add_one_eq_ofNat]
      exact ⟨rfl, fun n _ => State.slot_setSlot s rd.isLt _ n⟩

end Sys2Proof.Proofs
end

section
/-! PROOF. O30 (DEC), O31 (CMPR) and O32 (DCMP): the machine's unpacking, compression and decompression of a Poly are the
formulas of R18 and R19, and PARAM comes before every other refusal. -/

namespace Sys2Proof.Proofs

open Sys2Proof Sys2Proof.Machine Sys2Proof.Spec

/-! ## Polys coefficient by coefficient -/

theorem bitsToNat_eq_sum (n : Nat) (f : Nat → Bool) : bitsToNat n f = ∑ k ∈ Finset.range n, (f k).toNat * 2 ^ k := by
  induction n with
  | zero => rfl
  | succ n ih => rw [bitsToNat, Finset.sum_range_succ, ih]; cases f n <;> simp

theorem byteDecode_eq_rawValue (d : Nat) (B : List Byte) (i : Nat) : byteDecode d B i = rawValue d B i := by
  simp only [byteDecode, rawValue, bitsToNat_eq_sum, toNat_bitAt]

theorem decodePoly_eq_unpack (d : Nat) (B : List Byte) : decodePoly d B = unpack d B :=
  Poly.ofFn_congr fun i _ => by
    rw [narrow_eq_ofNat, byteDecode_eq_rawValue]
    exact Fin.ext (Nat.mod_mod _ _)

theorem decodeNoncanon_eq_nonCanonical (B : List Byte) : decodeNoncanon B = nonCanonical B 256 := by
  rw [Bool.eq_iff_iff]
  simp [decodeNoncanon, nonCanonical, byteDecode_eq_rawValue]

theorem compressPoly_eq_shrink (d : Nat) (p : Poly) : compressPoly d p = shrink d p :=
  Poly.ofFn_congr fun _ _ => narrow_eq_ofNat _

theorem decompressPoly_eq_grow (d : Nat) (p : Poly) : decompressPoly d p = grow d p :=
  Poly.ofFn_congr fun _ _ => narrow_eq_ofNat _

/-! ## The refusals after PARAM -/

/-- DEC with a legal width code reads no byte past the byte RAM (R541, R305). -/
theorem exec_dec_of_overrun {addr : ByteAddr} {dcode : BitVec 3} {rd : Slot} {s : State} {d : Nat}
    (hd : widthOf dcode = some d) (hrange : 8192 < addr.toNat + 32 * d) :
    exec (.dec addr 0 dcode rd) s = .next (failed 4 s) := by
  have hr := (inByteRam_eq_false_iff addr.toNat (32 * d)).2 hrange
  simp [exec, execDec, hd, hr, complete_error_eq_failed, CmdError.code]

/-- DCMP with a legal width code takes no coefficient that does not fit in it (R543). -/
theorem exec_dcmp_of_wide {fn : BitVec 3} {rs1 rd : Slot} {s : State} {d : Nat} (hd : compressWidthOf fn = some d)
    (hwide : ∃ i ∈ Finset.range 256, 2 ^ d ≤ ((s.slot rs1.toNat).get i).val) :
    exec (.dcmp 0 fn 0 rs1 rd) s = .next (failed 6 s) := by
  have hf := (fitsWidth_eq_false_iff d (s.slot rs1.toNat)).2 hwide
  simp [exec, execDcmp, hd, hf, complete_error_eq_failed, CmdError.code]

/-! ## The statements -/

/-- Settles O30: a raw value is the sum of its bits, and reducing it mod q stores it in a cell. -/
theorem decUnpacksCoefficients : Obligations.DecUnpacksCoefficients := by
  intro addr zero dcode rd s
  dsimp only
  by_cases hparam : zero ≠ 0 ∨ 5 < dcode.toNat
  · simp only [if_pos hparam]
    exact ⟨_, exec_of_illFormed (by simpa [Instr.wf, imp_iff_not_or] using hparam) s, rfl⟩
  simp only [if_neg hparam]
  obtain ⟨rfl, hcode⟩ : zero = 0 ∧ dcode.toNat ≤ 5 := by simpa using hparam
  have hd := widthOf_of_legal hcode
  by_cases hrange : 8192 < addr.toNat + 32 * [1, 4, 5, 10, 11, 12].getD dcode.toNat 0
  · simp only [if_pos hrange]
    exact ⟨_, exec_dec_of_overrun hd hrange, rfl⟩
  simp only [if_neg hrange, ← decodePoly_eq_unpack, ← decodeNoncanon_eq_nonCanonical]
  exact ⟨_, exec_dec_of_range hd (Nat.le_of_not_lt hrange), rfl, fun n _ => State.slot_setSlot s rd.isLt _ n⟩

/-- Settles O31. -/
theorem cmprCompressesCoefficients : Obligations.CmprCompressesCoefficients := by
  intro zero fn rs2 rs1 rd s
  by_cases hparam : zero ≠ 0 ∨ rs2 ≠ 0 ∨ 4 < fn.toNat
  · simp only [if_pos hparam]
    exact ⟨_, exec_of_illFormed (by simpa [Instr.wf, imp_iff_not_or, or_assoc] using hparam) s, rfl⟩
  simp only [if_neg hparam, ← compressPoly_eq_shrink]
  obtain ⟨rfl, rfl, hfn⟩ : zero = 0 ∧ rs2 = 0 ∧ fn.toNat ≤ 4 := by simpa using hparam
  exact ⟨_, exec_cmpr_of_legal (compressWidthOf_of_legal hfn).1, slotsBecome_setSlot s rd _⟩

/-- Settles O32: a coefficient that does not fit is refused before the slot is written. -/
theorem dcmpDecompressesCoefficients : Obligations.DcmpDecompressesCoefficients := by
  intro zero fn rs2 rs1 rd s
  dsimp only
  by_cases hparam : zero ≠ 0 ∨ rs2 ≠ 0 ∨ 4 < fn.toNat
  · simp only [if_pos hparam]
    exact ⟨_, exec_of_illFormed (by simpa [Instr.wf, imp_iff_not_or, or_assoc] using hparam) s, rfl⟩
  simp only [if_neg hparam, ← decompressPoly_eq_grow]
  obtain ⟨rfl, rfl, hfn⟩ : zero = 0 ∧ rs2 = 0 ∧ fn.toNat ≤ 4 := by simpa using hparam
  have hd := (compressWidthOf_of_legal hfn).1
  generalize [1, 4, 5, 10, 11].getD fn.toNat 0 = d at hd ⊢
  by_cases hwide : ∃ i ∈ Finset.range 256, 2 ^ d ≤ ((s.slot rs1.toNat).get i).val
  · simp only [if_pos hwide]
    exact ⟨_, exec_dcmp_of_wide hd hwide, rfl⟩
  · simp only [if_neg hwide]
    have hfits : ∀ i, i < 256 → ((s.slot rs1.toNat).get i).val < 2 ^ d := by simpa using hwide
    exact ⟨_, exec_dcmp_of_fits hd hfits, slotsBecome_setSlot s rd _⟩

end Sys2Proof.Proofs
end

section
/-! PROOF. The functions of K-PKE and ML-KEM (R560-R566, R590-R596): once the matrix's streams have yielded their values, what the
machine computes is what the rules say, in ℤ_q. -/

namespace Sys2Proof.Proofs

open Sys2Proof Sys2Proof.Machine Sys2Proof.Spec

/-! ## The matrix -/

theorem accepted_prefix (S : Nat → Byte) {m n : Nat} (h : m ≤ n) : accepted S m <+: accepted S n := by
  induction n, h using Nat.le_induction with
  | base => exact List.prefix_rfl
  | succ n _ ih => exact ih.trans (by rw [accepted_succ]; exact List.prefix_append _ _)

/-- More chunks than it takes to find 256 values do not change the sample (R505). -/
theorem sampled_eq_of_le (S : Nat → Byte) {m n : Nat} (hmn : m ≤ n) (hm : 256 ≤ (accepted S m).length) :
    sampled S m = sampled S n := by
  refine Poly.ofFn_congr fun k hk => ?_
  have hlt : k < (accepted S m).length := hk.trans_le hm
  rw [List.getD_eq_getElem?_getD, List.getD_eq_getElem?_getD,
    (List.prefix_iff_getElem?.1 (accepted_prefix S hmn)) k hlt, List.getElem?_eq_getElem hlt]

theorem genEntry_of_ready {n : Nat} {rho : List Byte} {i j : Nat}
    (h : 256 ≤ (accepted (stream rho i j) n).length) : genEntry n rho i j = some (sampled (stream rho i j) n) := by
  obtain ⟨k, hk, ⟨hlen, -⟩, hfound⟩ := sampleNTT_of_ready h
  rw [genEntry, xofA_eq_stream, hfound, ← sampled_eq_of_le _ hk hlen]

/-- GenA(ρ) once its 16 streams have yielded their values (R560). -/
theorem genA_of_ready {n : Nat} {rho : List Byte} (h : matrixReady n rho) : genA n rho = some (matrix n rho) := by
  rw [genA, if_pos (by simpa [genEntry_isSome_iff] using fun i hi j hj => h i j hi hj)]
  congr 1
  funext i j
  rw [genEntry_of_ready (h i j i.isLt j.isLt)]
  rfl

/-! ## Sampling and packing -/

theorem cbdPrf2_eq_noise (seed : List Byte) (n : Nat) : cbdPrf2 seed n = noise seed n :=
  samplePolyCBD_eq_cbdPoly (by decide) _

theorem byteEncode_eq_pack (d : Nat) (F : Poly) : byteEncode d F = pack d F := by
  simp only [byteEncode, pack, bitsToNat_eq_sum, Nat.toNat_testBit]

theorem enc12v_eq_packVec (v : Fin 4 → Poly) : enc12v v = packVec 12 v := by
  simp only [enc12v, packVec, byteEncode_eq_pack]

theorem encodeU_eq_packVec (u : Fin 4 → Poly) : encodeU u = packVec 11 fun i => shrink 11 (u i) := by
  simp only [encodeU, packVec, byteEncode_eq_pack, compressPoly_eq_shrink]

/-- A part of a part of a string. -/
theorem bytesAt_bytesAt (B : List Byte) {a n b k : Nat} (h : b + k ≤ n) :
    bytesAt (bytesAt B a n) b k = bytesAt B (a + b) k := by
  rw [bytesAt, bytesAt, bytesAt, List.drop_take, List.take_take, List.drop_drop, Nat.min_eq_left (by omega)]

/-- A part that reaches the end of the string. -/
theorem bytesAt_eq_drop {B : List Byte} {a n : Nat} (h : B.length ≤ a + n) : bytesAt B a n = B.drop a :=
  List.take_of_length_le (by simp; omega)

/-- The second half of G's output (R21). -/
theorem bytesAt_hashG (x : List Byte) : bytesAt (hashG x) 32 32 = (hashG64 x).drop 32 := bytesAt_eq_drop (by simp)

theorem dec12v_eq_unpack (B : List Byte) (k : Fin 4) : dec12v B k = unpack 12 (piece B 384 k.val) :=
  decodePoly_eq_unpack 12 _

/-- The four encoded Polys of a Vec are its first 1536 bytes (R560). -/
theorem bytesAt_vec_eq_piece (B : List Byte) {k : Nat} (hk : k < 4) :
    bytesAt (bytesAt B 0 1536) (384 * k) 384 = piece B 384 k := by
  rw [bytesAt_bytesAt B (by omega), Nat.zero_add]
  rfl

theorem dec12v_bytesAt (B : List Byte) : dec12v (bytesAt B 0 1536) = dec12v B := by
  funext k
  rw [dec12v, bytesAt_vec_eq_piece B k.isLt]
  rfl

/-- Raw value i of Poly number k of a string of encoded Polys is raw value 256·k + i of the string (R19, R560). -/
theorem rawValue_piece (B : List Byte) (k : Nat) {i : Nat} (hi : i < 256) :
    rawValue 12 (piece B 384 k) i = rawValue 12 B (256 * k + i) := by
  refine Finset.sum_congr rfl fun b hb => ?_
  have hb : b < 12 := Finset.mem_range.1 hb
  have hbyte : ((256 * k + i) * 12 + b) / 8 = 384 * k + (i * 12 + b) / 8 := by omega
  have hbit : ((256 * k + i) * 12 + b) % 8 = (i * 12 + b) % 8 := by omega
  have hin : (i * 12 + b) / 8 < 384 := by omega
  rw [bit, bit, hbyte, hbit, piece, List.getD_eq_getElem?_getD, List.getD_eq_getElem?_getD, List.getElem?_take_of_lt hin,
    List.getElem?_drop]

/-- The flag of Dec12v looks at the first 1024 raw values (R560). -/
theorem dec12vNoncanon_eq_nonCanonical (B : List Byte) : dec12vNoncanon (bytesAt B 0 1536) = nonCanonical B 1024 := by
  rw [Bool.eq_iff_iff]
  simp only [dec12vNoncanon, decodeNoncanon_eq_nonCanonical, nonCanonical, List.any_eq_true, List.mem_range,
    decide_eq_true_eq, Finset.mem_range]
  constructor
  · rintro ⟨k, hk, i, hi, hraw⟩
    rw [bytesAt_vec_eq_piece B hk, rawValue_piece B k hi] at hraw
    exact ⟨256 * k + i, by omega, hraw⟩
  · rintro ⟨n, hn, hraw⟩
    have hk : n / 256 < 4 := by omega
    have hi : n % 256 < 256 := Nat.mod_lt _ (by decide)
    refine ⟨n / 256, hk, n % 256, hi, ?_⟩
    rwa [bytesAt_vec_eq_piece B hk, rawValue_piece B _ hi, Nat.div_add_mod]

/-! ## Vectors -/

theorem vecAdd_eq_plus (v w : Fin 4 → Poly) : vecAdd v w = fun i => plus (v i) (w i) :=
  funext fun _ => polyAdd_eq_plus _ _

theorem nttVec_eq_nttLoops (v : Fin 4 → Poly) : nttVec v = fun i => nttLoops (v i) := funext fun _ => ntt_eq_nttLoops _

theorem inttVec_eq_inttLoops (v : Fin 4 → Poly) : inttVec v = fun i => inttLoops (v i) := funext fun _ => intt_eq_inttLoops _

theorem matVec_eq_sum4 (A : Fin 4 → Fin 4 → Poly) (v : Fin 4 → Poly) :
    matVec A v = fun i => sum4 fun j => baseMulZq (A i j) (v j) := funext fun i => polySum_baseMul (A i) v

theorem matVecT_eq_sum4 (A : Fin 4 → Fin 4 → Poly) (v : Fin 4 → Poly) :
    matVecT A v = fun i => sum4 fun j => baseMulZq (A j i) (v j) := funext fun i => polySum_baseMul (fun j => A j i) v

/-! ## The functions of R562, R564 and R566 -/

theorem kpkeKeyGen_of_ready {n : Nat} {d : List Byte} (h : matrixReady n (keyGenRho d)) :
    kpkeKeyGen n d = some ((keyGen (matrix n (keyGenRho d)) d).1, (keyGen (matrix n (keyGenRho d)) d).2) := by
  have hsigma : bytesAt (hashG (d ++ byteOf 4)) 32 32 = (hashG64 (d ++ [4])).drop 32 := bytesAt_hashG _
  simp only [kpkeKeyGen, keyGen, keyGenRho_eq, hsigma, genA_of_ready h, enc12v_eq_packVec, vecAdd_eq_plus, matVec_eq_sum4,
    nttVec_eq_nttLoops, cbdPrf2_eq_noise, Nat.add_comm 4]

theorem kpkeCiphertext_eq_encrypt (A : Fin 4 → Fin 4 → Poly) (ek m r : List Byte) :
    kpkeCiphertext A ek m r = encrypt A ek m r := by
  simp only [kpkeCiphertext, encrypt, encodeU_eq_packVec, byteEncode_eq_pack, compressPoly_eq_shrink, dec12v_bytesAt,
    dec12v_eq_unpack, messagePoly, decompressPoly_eq_grow, decodePoly_eq_unpack, vecAdd_eq_plus, inttVec_eq_inttLoops,
    matVecT_eq_sum4, nttVec_eq_nttLoops, polyAdd_eq_plus, dotProduct_eq_sum4, intt_eq_inttLoops, cbdPrf2_eq_noise,
    Nat.add_comm 4]

theorem kpkeEncrypt_of_ready {n : Nat} {ek : List Byte} (h : matrixReady n (bytesAt ek 1536 32)) (m r : List Byte) :
    kpkeEncrypt n ek m r = some (encrypt (matrix n (bytesAt ek 1536 32)) ek m r, nonCanonical ek 1024) := by
  simp only [kpkeEncrypt, genA_of_ready h, kpkeCiphertext_eq_encrypt, dec12vNoncanon_eq_nonCanonical]

theorem kpkeDecrypt_eq_decrypt (dk : List Byte) {c : List Byte} (hc : c.length = 1568) :
    kpkeDecrypt dk c = decrypt dk c := by
  have hv : bytesAt c 1408 160 = c.drop 1408 := bytesAt_eq_drop (by omega)
  simp only [kpkeDecrypt, decrypt, byteEncode_eq_pack, compressPoly_eq_shrink, polySub_eq_minus, decompressPoly_eq_grow,
    decodePoly_eq_unpack, hv, intt_eq_inttLoops, dotProduct_eq_sum4, dec12v_eq_unpack, nttVec_eq_nttLoops]
  rfl

theorem length_keyGen (A : Fin 4 → Fin 4 → Poly) (d : List Byte) :
    (keyGen A d).1.length = 1568 ∧ (keyGen A d).2.length = 1536 := by
  simp [keyGen, ← enc12v_eq_packVec, keyGenRho, hashG64]

theorem length_encrypt (A : Fin 4 → Fin 4 → Poly) (ek m r : List Byte) : (encrypt A ek m r).length = 1568 := by
  rw [← kpkeCiphertext_eq_encrypt, length_kpkeCiphertext]

theorem length_decrypt (dk c : List Byte) : (decrypt dk c).length = 32 := by
  simp [decrypt, ← byteEncode_eq_pack]

/-! ## CtEq and the functions of R590, R592 and R594 -/

/-- The OR of all byte differences is 0 exactly when there is none (R601). -/
theorem foldl_or_xor_eq_zero_iff {x y : List Byte} (h : x.length = y.length) (diff : Byte) :
    (List.zipWith (fun a b => a ^^^ b) x y).foldl (fun diff v => diff ||| v) diff = 0#8 ↔ diff = 0#8 ∧ x = y := by
  induction x generalizing y diff with
  | nil =>
    obtain rfl := List.length_eq_zero_iff.1 h.symm
    simp
  | cons a x ih =>
    obtain ⟨b, y, rfl⟩ := List.exists_cons_of_length_eq_add_one h.symm
    simp [ih (Nat.succ.inj h), and_assoc]

theorem ctEq_eq {x y : List Byte} (h : x.length = y.length) : ctEq x y = if x = y then 1 else 0 :=
  if_congr ((foldl_or_xor_eq_zero_iff h 0#8).trans (and_iff_right rfl)) rfl rfl

theorem select_ctEq {x y : List Byte} (h : x.length = y.length) (a b : List Byte) :
    select (ctEq x y) a b = if x = y then a else b := by
  rw [ctEq_eq h, select]
  by_cases hxy : x = y <;> simp [hxy]

theorem mlkemKeyGen_of_ready {n : Nat} {d : List Byte} (h : matrixReady n (keyGenRho d)) (z : List Byte) :
    let out := keyGen (matrix n (keyGenRho d)) d
    mlkemKeyGen n d z = some (out.1, out.2 ++ out.1 ++ hashH32 out.1 ++ z) := by
  rw [mlkemKeyGen, kpkeKeyGen_of_ready h]
  rfl

theorem mlkemEncaps_of_ready {n : Nat} {ek : List Byte} (h : matrixReady n (bytesAt ek 1536 32)) (m : List Byte) :
    let g := hashG64 (m ++ hashH32 ek)
    mlkemEncaps n ek m =
      some (g.take 32, encrypt (matrix n (bytesAt ek 1536 32)) ek m (g.drop 32), nonCanonical ek 1024) := by
  simp only [mlkemEncaps, kpkeEncrypt_of_ready h, bytesAt_hashG]
  rfl

theorem mlkemDecaps_of_ready {n : Nat} {dk c : List Byte} (hc : c.length = 1568)
    (h : matrixReady n (bytesAt (bytesAt dk 1536 1568) 1536 32)) :
    let ek := bytesAt dk 1536 1568
    let m := decrypt (bytesAt dk 0 1536) c
    let g := hashG64 (m ++ bytesAt dk 3104 32)
    mlkemDecaps n dk c =
      some (if encrypt (matrix n (bytesAt ek 1536 32)) ek m (g.drop 32) = c then g.take 32
        else hashJ32 (bytesAt dk 3136 32 ++ c), nonCanonical ek 1024) := by
  have hlen (A m r) := hc.trans (length_encrypt A (bytesAt dk 1536 1568) m r).symm
  simp only [mlkemDecaps, kpkeDecrypt_eq_decrypt _ hc, kpkeEncrypt_of_ready h, bytesAt_hashG, select_ctEq (hlen _ _ _),
    eq_comm (a := c)]
  rfl

end Sys2Proof.Proofs
end

section
/-! PROOF. O35 (KPKE_KEYGEN), O36 (KPKE_ENC), O37 (KPKE_DEC), O38 (MLKEM_KEYGEN), O39 (MLKEM_ENCAPS) and O40 (MLKEM_DECAPS): the
commands share their outcomes and their end, which is some mailbox writes and a wipe. They differ in the function computed, the
regions written and the regions wiped. -/

namespace Sys2Proof.Proofs

open Sys2Proof Sys2Proof.Machine Sys2Proof.Spec

/-! ## How a sequencer command ends -/

/-- A byte read after a mailbox write: in the region the string's byte, elsewhere the byte before. -/
theorem read_setMailbox {s : State} (hw : s.bram.wf = true) {r : Nat × Nat} {B : List Byte} (hB : B.length = r.2)
    (hr : r.1 + r.2 ≤ 8192) (a : Nat) :
    (s.setMailbox r B).bram.read a = if within r.1 r.2 a then B.getD (a - r.1) 0 else s.bram.read a := by
  rw [← hB] at hr ⊢
  exact Memory.read_writeBytes hw hr a

/-- A byte read after the writes of two regions that do not meet. -/
theorem read_setMailbox_setMailbox {s : State} (hw : s.bram.wf = true) {r r' : Nat × Nat} {B B' : List Byte}
    (hB : B.length = r.2) (hB' : B'.length = r'.2) (hr : r.1 + r.2 ≤ 8192) (hr' : r'.1 + r'.2 ≤ 8192)
    (apart : r.1 + r.2 ≤ r'.1 ∨ r'.1 + r'.2 ≤ r.1) (a : Nat) :
    ((s.setMailbox r B).setMailbox r' B').bram.read a =
      if within r.1 r.2 a then B.getD (a - r.1) 0
      else if within r'.1 r'.2 a then B'.getD (a - r'.1) 0
      else s.bram.read a := by
  rw [read_setMailbox (setMailbox_wf hw hB hr) hB' hr', read_setMailbox hw hB hr]
  exact ite_ite_comm _ _ _ _ fun _ => by omega

/-- A command that changes byte RAM and NONCANON and then wipes leaves the wiped regions and every slot 0 (R561, R568). -/
theorem sequenced_wipe {s u : State} {nc : Bool} {extra : List (Nat × Nat)} {wiped : Nat → Prop} [DecidablePred wiped]
    {f : Nat → Byte} (frame : u = { s with bram := u.bram, status := s.status.flagNoncanon nc })
    (hwiped : ∀ a, (∃ r ∈ Mailbox.cp :: Mailbox.scr :: extra, within r.1 r.2 a) ↔ wiped a)
    (hbytes : ∀ a, u.bram.read a = f a) :
    sequenced s nc (fun a => if wiped a then 0 else f a) (s.complete (.done (wipe extra u))) := by
  refine ⟨?_, fun k i _ hi => ?_, fun a => ?_⟩
  · rw [frame]
    rfl
  · rw [State.slot_complete_done, wipe, State.slot_setBram, State.slot_zeroSlots, Poly.get_zero hi]
  · rw [State.bram_complete_done, wipe_bram, Memory.read_zeroRegions]
    exact if_congr (hwiped a) rfl (hbytes a)

/-- The three outcomes of a sequencer command that builds the matrix: PARAM, not yet, or its result (R312, R505). -/
theorem sequencer_outcomes {i : Instr} {s : State} {zero : BitVec 24} {r : Effect} {ready : Prop} {nc : Bool}
    {f : Nat → Byte} (hexec : exec i s = finish s (if zero ≠ 0 then .error .param s else r))
    (hpending : ¬ready → r = .pending) (hdone : ready → sequenced s nc f (s.complete r)) :
    ∃ t, exec i s = .next t ∧ (zero ≠ 0 → t = failed 2 s) ∧ (zero = 0 → ¬ready → t = notYet s) ∧
      (zero = 0 → ready → sequenced s nc f t) := by
  refine ⟨_, hexec, fun hz => ?_, fun hz h => ?_, fun hz h => ?_⟩
  · rw [if_pos hz]
    exact complete_error_eq_failed s .param s
  · rw [if_neg (not_not_intro hz), hpending h]
    exact complete_pending_eq_notYet s
  · rw [if_neg (not_not_intro hz)]
    exact hdone h

/-! ## The wiped regions -/

/-- KPKE_KEYGEN, KPKE_ENC and KPKE_DEC wipe CP and SCR only (R561). -/
theorem wiped_none (a : Nat) :
    (∃ r ∈ [Mailbox.cp, Mailbox.scr], within r.1 r.2 a) ↔ within 0x18A0 1568 a ∨ within 0x1F60 160 a := by
  simp [Mailbox.cp, Mailbox.scr]

/-- MLKEM_KEYGEN also wipes both seeds, which are neighbours (R591). -/
theorem wiped_seeds (a : Nat) :
    (∃ r ∈ [Mailbox.cp, Mailbox.scr, Mailbox.seedD, Mailbox.seedZ], within r.1 r.2 a) ↔
      within 0x18A0 1568 a ∨ within 0x1F60 160 a ∨ within 0x1EC0 64 a := by
  have hseeds : within 0x1EC0 64 a ↔ within 0x1EC0 32 a ∨ within 0x1EE0 32 a := by omega
  rw [hseeds]
  simp [Mailbox.cp, Mailbox.scr, Mailbox.seedD, Mailbox.seedZ]

/-- MLKEM_ENCAPS also wipes MSG and COINS (R593). -/
theorem wiped_msg_coins (a : Nat) :
    (∃ r ∈ [Mailbox.cp, Mailbox.scr, Mailbox.msg, Mailbox.coins], within r.1 r.2 a) ↔
      within 0x18A0 1568 a ∨ within 0x1F60 160 a ∨ within 0x1F00 32 a ∨ within 0x1F40 32 a := by
  simp [Mailbox.cp, Mailbox.scr, Mailbox.msg, Mailbox.coins]

/-- MLKEM_DECAPS also wipes COINS (R595). -/
theorem wiped_coins (a : Nat) :
    (∃ r ∈ [Mailbox.cp, Mailbox.scr, Mailbox.coins], within r.1 r.2 a) ↔
      within 0x18A0 1568 a ∨ within 0x1F60 160 a ∨ within 0x1F40 32 a := by
  simp [Mailbox.cp, Mailbox.scr, Mailbox.coins]

/-! ## Parts of strings -/

/-- The first bytes of a string are its own. -/
theorem getD_take_of_lt {B : List Byte} {n k : Nat} (hk : k < n) : (B.take n).getD k 0 = B.getD k 0 := by
  rw [List.getD_eq_getElem?_getD, List.getElem?_take_of_lt hk, List.getD_eq_getElem?_getD]

/-- A field of dk is the string at its address, as the region DK starts at address 0 (R150, R590). -/
theorem mailbox_dk_part (s : State) {b k : Nat} (h : b + k ≤ 3168) :
    bytesAt (s.mailbox Mailbox.dk) b k = s.bram.readBytes b k :=
  (bytesAt_readBytes s.bram h).trans (congrArg (s.bram.readBytes · k) (Nat.zero_add b))

/-! ## The statements -/

/-- Settles O35: EK and dk_pke lie apart, so each holds what was written to it. -/
theorem kpkeKeygenWritesKeysThenWipes : Obligations.KpkeKeygenWritesKeysThenWipes := by
  intro zero s hw
  refine sequencer_outcomes rfl (fun h => ?_) fun h => ?_
  · rw [(kpkeKeyGen_eq_none_iff _ (s.mailbox Mailbox.seedD)).2 h]
  · obtain ⟨hek, hdk⟩ := length_keyGen (matrix s.chunks (keyGenRho (s.mailbox Mailbox.seedD))) (s.mailbox Mailbox.seedD)
    rw [kpkeKeyGen_of_ready (d := s.mailbox Mailbox.seedD) h]
    exact sequenced_wipe (setMailbox_setMailbox_frame s _ _ _ _) wiped_none
      (read_setMailbox_setMailbox hw hek hdk (by decide) (by decide) (by decide))

/-- Settles O36: ρ is the end of EK. -/
theorem kpkeEncWritesCiphertextThenWipes : Obligations.KpkeEncWritesCiphertextThenWipes := by
  intro zero s hw
  dsimp only
  rw [← mailbox_ek_rho]
  refine sequencer_outcomes rfl (fun h => ?_) fun h => ?_
  · rw [(kpkeEncrypt_eq_none_iff _ (s.mailbox Mailbox.ek) _ _).2 h]
  · rw [kpkeEncrypt_of_ready h]
    refine sequenced_wipe (setMailbox_setStatus_frame s _ _ _) wiped_none fun a => ?_
    rw [State.setStatus_bram]
    exact read_setMailbox hw (length_encrypt _ _ _ _) (by decide) a

/-- Settles O37: no stream is sampled, so the command always completes. -/
theorem kpkeDecWritesMessageThenWipes : Obligations.KpkeDecWritesMessageThenWipes := by
  intro zero s hw
  refine ⟨_, rfl, ?_⟩
  dsimp only
  by_cases hz : zero ≠ 0
  · rw [if_pos hz, if_pos hz]
    exact complete_error_eq_failed s .param s
  · rw [if_neg hz, if_neg hz, kpkeDecrypt_eq_decrypt _ (State.length_mailbox s Mailbox.ct)]
    exact sequenced_wipe (setMailbox_frame s _ _) wiped_none (read_setMailbox hw (length_decrypt _ _) (by decide))

/-- Settles O38: DK ends where EK begins. -/
theorem mlkemKeygenWritesKeysThenWipes : Obligations.MlkemKeygenWritesKeysThenWipes := by
  intro zero s hw
  refine sequencer_outcomes rfl (fun h => ?_) fun h => ?_
  · rw [(mlkemKeyGen_eq_none_iff _ (s.mailbox Mailbox.seedD) _).2 h]
  · have hout := mlkemKeyGen_of_ready (d := s.mailbox Mailbox.seedD) h (s.mailbox Mailbox.seedZ)
    obtain ⟨hek, hdk⟩ := length_mlkemKeyGen (State.length_mailbox s Mailbox.seedZ) hout
    rw [hout]
    exact sequenced_wipe (setMailbox_setMailbox_frame s _ _ _ _) wiped_seeds
      (read_setMailbox_setMailbox hw hek hdk (by decide) (by decide) (by decide))

/-- Settles O39: K is the first half of G's output. -/
theorem mlkemEncapsWritesCiphertextAndSecret : Obligations.MlkemEncapsWritesCiphertextAndSecret := by
  intro zero s hw
  dsimp only
  rw [← mailbox_ek_rho]
  refine sequencer_outcomes rfl (fun h => ?_) fun h => ?_
  · rw [(mlkemEncaps_eq_none_iff _ (s.mailbox Mailbox.ek) _).2 h]
  · have hout := mlkemEncaps_of_ready h (s.mailbox Mailbox.msg)
    obtain ⟨hk, hc⟩ := length_mlkemEncaps hout
    rw [hout]
    refine sequenced_wipe (setMailbox_setMailbox_setStatus_frame s _ _ _ _ _) wiped_msg_coins fun a => ?_
    rw [State.setStatus_bram, read_setMailbox_setMailbox hw hc hk (by decide) (by decide) (by decide)]
    exact if_congr Iff.rfl rfl <|
      if_ctx_congr Iff.rfl (fun ha => getD_take_of_lt (Nat.sub_lt_left_of_lt_add ha.1 ha.2)) fun _ => rfl

/-- Settles O40: CtEq and Select choose between K′ and J(z ‖ c). -/
theorem mlkemDecapsWritesSecretOrRejects : Obligations.MlkemDecapsWritesSecretOrRejects := by
  intro zero s hw
  refine sequencer_outcomes rfl (fun h => ?_) fun h => ?_
  · rw [← mailbox_dk_rho] at h
    rw [(mlkemDecaps_eq_none_iff _ (s.mailbox Mailbox.dk) _).2 h]
  · rw [← mailbox_dk_rho] at h
    have hout := mlkemDecaps_of_ready (State.length_mailbox s Mailbox.ct) h
    simp (disch := decide) only [mailbox_dk_part, bytesAt_readBytes] at hout
    have hK := length_mlkemDecaps hout
    rw [hout]
    refine sequenced_wipe (setMailbox_setStatus_frame s _ _ _) wiped_coins fun a => ?_
    rw [State.setStatus_bram]
    exact read_setMailbox hw hK (by decide) a

end Sys2Proof.Proofs
end

section
/-! PROOF. O34 (CTEQ): two strings of one length are equal when their bytes are, so CtEq compares the two ranges byte by byte. -/

namespace Sys2Proof.Proofs

open Sys2Proof Sys2Proof.Machine Sys2Proof.Spec

theorem readBytes_eq_iff (m m' : Memory) (a b n : Nat) :
    m.readBytes a n = m'.readBytes b n ↔ ∀ i < n, m.read (a + i) = m'.read (b + i) := by
  simp only [Memory.readBytes, List.map_inj_left, List.mem_range]

/-- CtEq of two ranges of the byte RAM, as RES holds it (R600, R601). -/
theorem ofNat_ctEq_readBytes (m : Memory) (a b n : Nat) :
    BitVec.ofNat 16 (ctEq (m.readBytes a n) (m.readBytes b n)) =
      if ∀ i < n, m.read (a + i) = m.read (b + i) then 1 else 0 := by
  rw [ctEq_eq (by simp), apply_ite (BitVec.ofNat 16)]
  exact if_congr (readBytes_eq_iff m m a b n) rfl rfl

/-- Settles O34. -/
theorem cteqComparesStrings : Obligations.CteqComparesStrings := by
  intro zero s
  refine congrArg Host.Outcome.next ?_
  rw [← ofNat_ctEq_readBytes]
  by_cases hz : zero ≠ 0
  · rw [if_pos hz, if_pos hz]; rfl
  rw [if_neg hz, if_neg hz]
  simp only [Bool.and_eq_false_iff, inByteRam_eq_false_iff]
  by_cases hrange : 8192 < s.hsrc.toNat + s.hlen.toNat ∨ 8192 < s.hdst.toNat + s.hlen.toNat
  · rw [if_pos hrange, if_pos hrange]; rfl
  · rw [if_neg hrange, if_neg hrange]; rfl

end Sys2Proof.Proofs
end

section
/-! PROOF. O60: what O40 says of the two runs differs only in K. The matrix and the NONCANON flag are functions of DK, which both
memories hold, and the comparison of the ciphertexts enters K alone. -/

namespace Sys2Proof.Proofs

open Sys2Proof Sys2Proof.Machine Sys2Proof.Spec

/-- The slot RAM is its 64 · 256 coefficients. -/
theorem slots_eq_of_get_eq {s t : State} (h : ∀ k i, k < 64 → i < 256 → (s.slot k).get i = (t.slot k).get i) :
    s.slots = t.slots := by
  refine Vector.ext fun k hk => ?_
  have hslot (v : State) : v.slot k = v.slots[k] := by simp [State.slot, List.getD, hk]
  rw [← hslot s, ← hslot t]
  exact Poly.ext_get fun i hi => h k i hk hi

/-- Two sequencer commands from states that differ in the byte RAM only, with one NONCANON flag, end in states that differ in
the byte RAM only. -/
theorem eq_of_sequenced {s t u : State} {m : Memory} {nc : Bool} {f g : Nat → Byte} (ht : sequenced s nc f t)
    (hu : sequenced { s with bram := m } nc g u) : u = { t with bram := u.bram } := by
  obtain ⟨tframe, tzero, -⟩ := ht
  obtain ⟨uframe, uzero, -⟩ := hu
  have hslots : u.slots = t.slots :=
    slots_eq_of_get_eq fun k i hk hi => (uzero k i hk hi).trans (tzero k i hk hi).symm
  refine uframe.trans ?_
  rw [hslots]
  exact congrArg (fun v : State => { v with bram := u.bram }) tframe.symm

/-- Settles O60. -/
theorem decapsReportsNothing : Obligations.DecapsReportsNothing := by
  intro zero s m hs hm hout
  have hdk (a : Nat) {n : Nat} (ha : a + n ≤ 0x1280) : m.readBytes a n = s.bram.readBytes a n :=
    Memory.readBytes_congr fun k hk => hout (a + k) (by omega)
  obtain ⟨t, ht, t_param, t_notYet, t_done⟩ := mlkemDecapsWritesSecretOrRejects zero s hs
  obtain ⟨u, hu, u_param, u_notYet, u_done⟩ := mlkemDecapsWritesSecretOrRejects zero { s with bram := m } hm
  rw [hdk 0x0C00 (by decide)] at u_notYet u_done
  rw [hdk 0x0600 (by decide)] at u_done
  refine ⟨t, u, ht, hu, ?_⟩
  by_cases hz : zero = 0
  · by_cases hready : matrixReady s.chunks (s.bram.readBytes 0x0C00 32)
    · obtain ⟨-, -, tread⟩ := t_done hz hready
      obtain ⟨-, -, uread⟩ := u_done hz hready
      refine ⟨eq_of_sequenced (t_done hz hready) (u_done hz hready), fun a hct hkout => ?_⟩
      rw [tread, uread]
      dsimp only
      rw [if_neg hkout, if_neg hkout, hout a hct]
    · rw [t_notYet hz hready, u_notYet hz hready]
      exact ⟨rfl, fun a hct _ => hout a hct⟩
  · rw [t_param hz, u_param hz]
    exact ⟨rfl, fun a hct _ => hout a hct⟩

end Sys2Proof.Proofs
end

section
/-! PROOF. O11 (NOP), O12 (WIPE), and O9, O10 and O58 (the reset state and the soft reset). -/

namespace Sys2Proof.Proofs

open Sys2Proof Sys2Proof.Machine Sys2Proof.Spec

/-- Settles O11. -/
theorem nopChangesOnlyLifecycle : Obligations.NopChangesOnlyLifecycle := by
  intro zero s
  refine congrArg Host.Outcome.next ?_
  by_cases hz : zero ≠ 0
  · rw [if_pos hz, if_pos hz]; rfl
  · rw [if_neg hz, if_neg hz]; rfl

/-- Settles O12: no byte is listed and every slot is the zero polynomial. -/
theorem wipeZeroesBothRams : Obligations.WipeZeroesBothRams := by
  intro zero s
  refine ⟨_, rfl, ?_⟩
  by_cases hz : zero ≠ 0
  · rw [if_pos hz, if_pos hz]
    exact complete_error_eq_failed s .param s
  · rw [if_neg hz, if_neg hz]
    refine ⟨rfl, fun k i _ hi => ?_, Memory.read_nil⟩
    rw [State.slot_complete_done, State.slot_setBram, State.slot_zeroSlots, Poly.get_zero hi]

/-- The zero polynomial as the reset state lists it. -/
theorem replicate_zero_eq_zero : (Vector.replicate 256 0 : Poly) = Poly.zero :=
  Poly.ext_get fun i hi => by
    rw [Poly.get_zero hi]
    simp only [Poly.get, Vector.toList_replicate, List.getD, List.getElem?_replicate, hi, if_true,
      Option.getD_some]

/-- Reset leaves in the slot RAM what WIPE leaves there (R621, R801). -/
theorem slots_reset : State.reset.slots = zeroSlots := congrArg (Vector.replicate 64) replicate_zero_eq_zero

theorem slot_reset (n : Nat) : State.reset.slot n = Poly.zero := by
  rw [← State.slot_zeroSlots State.reset n, ← slots_reset]
  rfl

/-- Settles O9. -/
theorem resetStateAsSpecified : Obligations.ResetStateAsSpecified := by
  have read (r : Reg) : (hostRead (regAddress r) State.reset).1 = readReg r State.reset :=
    congrArg Prod.fst (hostRead_register r State.reset)
  refine ⟨read .id, read .ctrl, rfl, rfl, rfl, rfl, rfl, rfl, rfl, rfl, rfl, rfl, rfl, rfl, rfl, rfl, rfl, rfl, rfl, rfl, rfl,
    fun k i _ hi => ?_, Memory.read_nil, rfl⟩
  rw [slot_reset, Poly.get_zero hi]

/-- Settles O10: the reset state is its own reset. -/
theorem resetMeetsInvariant : Obligations.ResetMeetsInvariant := ⟨inv_resetCore State.reset, rfl⟩

/-- Settles O58. -/
theorem softResetIsReset : Obligations.SoftResetIsReset :=
  fun data s hsrst => ⟨(hostWrite_register .ctrl data s).trans (if_pos hsrst), rfl⟩

end Sys2Proof.Proofs
end
